-- ==== Sys2Proof/Word.lean ====
section
/-! DEFINITION. The word types of FHP (spec/00_scope.md R6, R102): bytes, hardware addresses, protocol addresses. Every
value FHP handles is unsigned. -/

namespace Sys2Proof

/-- One byte of a frame (R11). -/
abbrev Byte := BitVec 8

/-- A 6-byte hardware address, first byte on the wire most significant (R20, R30). -/
abbrev MacAddr := BitVec 48

/-- A 4-byte protocol address, first byte on the wire most significant (R21, R30). -/
abbrev Ipv4Addr := BitVec 32

/-- A 16-byte address, first byte on the wire most significant (R22, R30). -/
abbrev Ipv6Addr := BitVec 128

end Sys2Proof
end

