-- ==== Sys2Proof/Config.lean ====
section
/-! DEFINITION. The parameters of FHP (spec/00_scope.md R5, spec/92_eei_decisions.md, open parameters): fixed header
sizes and dispatch codes, the open capacity and label type, and the free values. An `opaque` constant has no body, so no
proof can see which value it has. -/

namespace Sys2Proof.Config

/-- `ETH_HLEN`, R5. -/
abbrev ethHlen : Nat := 14
/-- `IPV4_MIN`, R5. -/
abbrev ipv4Min : Nat := 20
/-- The least legal IHL: `IPV4_MIN` in 4-byte units (R74, R92). -/
abbrev ihlMin : Nat := 5
/-- `IPV6_HLEN`, R5. -/
abbrev ipv6Hlen : Nat := 40
/-- `ARP_LEN`, R5. -/
abbrev arpLen : Nat := 28
/-- `TCP_MIN`, R5. -/
abbrev tcpMin : Nat := 20
/-- `UDP_LEN`, R5. -/
abbrev udpLen : Nat := 8

/-- `ETYPE_IPV4`, R5 and R68. -/
abbrev etypeIpv4 : BitVec 16 := 0x0800
/-- `ETYPE_IPV6`, R5 and R68. -/
abbrev etypeIpv6 : BitVec 16 := 0x86DD
/-- `ETYPE_ARP`, R5 and R68. -/
abbrev etypeArp : BitVec 16 := 0x0806
/-- `PROTO_TCP`, R5 and R69. -/
abbrev protoTcp : BitVec 8 := 6
/-- `PROTO_UDP`, R5 and R69. -/
abbrev protoUdp : BitVec 8 := 17

/-- How far the open capacity `FB_MAX` lies above its least value (R5, R11; log 8). Open parameter. -/
opaque fbExtra : Nat

/-- `FB_MAX`, the capacity of the frame buffer: any natural number of at least 94 (R5, R11; log 8). -/
def fbMax : Nat := fbExtra + 94

/-- Which numbers name a label of the open type `Label` (R5, D6; log 9). Open parameter: a type with decidable equality whose
values can be written down is one such set of names. -/
opaque isLabel : Nat → Bool

/-- FREE VALUE: what the byte of `FB` at an offset holds while the host has not written it since reset number `epoch` (R34, R211,
U13; log 4). -/
opaque unwrittenByte : (epoch offset : Nat) → BitVec 8

/-- FREE VALUE: a number that fixes what `FLEN` holds while the host has not written it since reset number `epoch` (R34, R211,
U13; log 3). -/
opaque unwrittenLength : (epoch : Nat) → Nat

/-- FREE VALUE: what a field register of `w` bits physically holds after an accepted command made it invalid (R29, R144):
`stale w reg n old` for register number `reg` (R28), the `n`-th such command, and the content `old` before it (log 7). -/
opaque stale : (w reg n : Nat) → BitVec w → BitVec w

end Sys2Proof.Config

namespace Sys2Proof

/-- `Label`: the interface label, copied into a report and never inspected (R5, R16, D6; log 9). -/
abbrev Label := { n : Nat // n = 0 ∨ Config.isLabel n = true }

/-- The label named 0, which every label type has here, so that `LABEL` holds a value at reset (log 5). -/
def Label.first : Label := ⟨0, .inl rfl⟩

end Sys2Proof
end

