-- ==== Sys2Proof/Syntax.lean ====
section
/-! DEFINITION. The ten operations of FHP, one constructor per row of spec/opcode_table.json, and the four kinds of key
that select them (spec/30_encoding.md R68 to R71). -/

namespace Sys2Proof

/-- The operations of FHP. The two commands carry the label of the `CMD` write (R141, R142); the two default rows carry
the key that matched no listed row (R124, R113; log 29). No other operation has an operand of its own: its operands are
`OFF`, `FB` and `FLEN`. -/
inductive Instr where
  /-- `CMD.SUMMARIZE`, R141. -/
  | cmdSummarize (label : Label)
  /-- `CMD.PROCESS`, R142. -/
  | cmdProcess (label : Label)
  /-- `L2.ETH`, R143. -/
  | l2Eth
  /-- `L3.IPV4`, R121. -/
  | l3Ipv4
  /-- `L3.IPV6`, R122. -/
  | l3Ipv6
  /-- `L3.ARP`, R123. -/
  | l3Arp
  /-- `L3.OTHER`, R124. -/
  | l3Other (etherType : BitVec 16)
  /-- `L4.TCP`, R111. -/
  | l4Tcp
  /-- `L4.UDP`, R112. -/
  | l4Udp
  /-- `L4.OTHER`, R113. -/
  | l4Other (key : BitVec 8)
  deriving DecidableEq, Repr

/-- What selects an operation: a host write to `CMD`, or the parser state with its key (R70, R68, R69). -/
inductive Key where
  /-- A host write to `CMD`: the mode is bit 0 (R70), the label stands above it (R16), and `above` are the bits above the
  label. -/
  | command (mode : BitVec 1) (label : Label) (above : Nat)
  /-- `PS = L2`: there is no key (R70). -/
  | layer2
  /-- `PS = L3`: the key is `ETHERTYPE` (R68). -/
  | layer3 (etherType : BitVec 16)
  /-- `PS = L4`: the key is `L4KEY` (R69). -/
  | layer4 (l4key : BitVec 8)
  deriving DecidableEq, Repr

end Sys2Proof
end

