-- ==== Sys2Proof/WellFormed.lean ====
section
/-! DEFINITION. Which terms of `Instr` are operations of FHP: a default row's key is none of the listed codes of its
dispatch table (spec/30_encoding.md R68, R69, R71). -/

namespace Sys2Proof

/-- The ethertype codes that have a decoder (R68). -/
def listedEtherTypes : List (BitVec 16) := [Config.etypeIpv4, Config.etypeIpv6, Config.etypeArp]

/-- The next-protocol codes that have a decoder (R69). -/
def listedProtocols : List (BitVec 8) := [Config.protoTcp, Config.protoUdp]

/-- The check: the default rows carry a key that no listed row has (R71); every other term is well formed. -/
def Instr.wellFormed : Instr → Bool
  | .cmdSummarize _ => true
  | .cmdProcess _ => true
  | .l2Eth => true
  | .l3Ipv4 => true
  | .l3Ipv6 => true
  | .l3Arp => true
  | .l3Other k => !listedEtherTypes.contains k
  | .l4Tcp => true
  | .l4Udp => true
  | .l4Other k => !listedProtocols.contains k

end Sys2Proof
end

