-- ==== Sys2Proof/Decode.lean ====
section
/-! DEFINITION. The decoder and the encoder of the dispatch tables (spec/30_encoding.md R68 to R72, spec/opcode_table.json).
Decoding is total: FHP has no illegal encoding (R72), so nothing is rejected; a key no exact row has selects the default
row of its layer. -/

namespace Sys2Proof

/-- Dispatch of a `CMD` write on its bit 0 (R70); the label is its operand. -/
def decodeCommand (mode : BitVec 1) (label : Label) : Instr :=
  if mode = 0 then .cmdSummarize label else .cmdProcess label

/-- Layer-3 dispatch: exact rows over the whole width first, the default row when none equals the key (R68, R71). -/
def decodeLayer3 (k : BitVec 16) : Instr :=
  if k = Config.etypeIpv4 then .l3Ipv4
  else if k = Config.etypeIpv6 then .l3Ipv6
  else if k = Config.etypeArp then .l3Arp
  else .l3Other k

/-- Layer-4 dispatch, the same for IPv4's protocol field and IPv6's next-header field (R69, R71). -/
def decodeLayer4 (k : BitVec 8) : Instr :=
  if k = Config.protoTcp then .l4Tcp
  else if k = Config.protoUdp then .l4Udp
  else .l4Other k

/-- The operation a key selects (R68 to R71). The bits of a `CMD` write above the mode bit and the label are ignored (R72). -/
def decode : Key → Instr
  | .command mode label _ => decodeCommand mode label
  | .layer2 => .l2Eth
  | .layer3 k => decodeLayer3 k
  | .layer4 k => decodeLayer4 k

/-- The operation read from an instruction of `nbits` bits numbered as spec/opcode_table.json numbers them. The table's
rows lie in four key spaces, which the parser state tells apart in the machine and the key's width here (log 21): no bits
is state `L2`; 9 to 16 bits is an ethertype; 1 to 8 bits is `L4.TCP` or `L4.UDP` for their exact codes, a `CMD` write for the
bare mode bit (0 or 1, with the label named 0), and any other layer-4 key otherwise. -/
def decodeTableWord (nbits w : Nat) : Option Instr :=
  if nbits = 0 then some (decode .layer2)
  else if nbits ≤ 8 then
    if w % 256 ≤ 1 then some (decode (.command (BitVec.ofNat 1 w) .first 0))
    else some (decode (.layer4 (BitVec.ofNat 8 w)))
  else if nbits ≤ 16 then some (decode (.layer3 (BitVec.ofNat 16 w)))
  else none

/-- The encoder: the key that selects an operation, from the same tables (R68 to R70). -/
def encode : Instr → Key
  | .cmdSummarize label => .command 0 label 0
  | .cmdProcess label => .command 1 label 0
  | .l2Eth => .layer2
  | .l3Ipv4 => .layer3 Config.etypeIpv4
  | .l3Ipv6 => .layer3 Config.etypeIpv6
  | .l3Arp => .layer3 Config.etypeArp
  | .l3Other k => .layer3 k
  | .l4Tcp => .layer4 Config.protoTcp
  | .l4Udp => .layer4 Config.protoUdp
  | .l4Other k => .layer4 k

/-- A key without the bits of a `CMD` write above the label, which are ignored (R72). -/
def Key.trimmed : Key → Key
  | .command mode label _ => .command mode label 0
  | .layer2 => .layer2
  | .layer3 k => .layer3 k
  | .layer4 k => .layer4 k

end Sys2Proof
end

