-- ==== Sys2Proof/Machine/State.lean ====
section
/-! DEFINITION. The state of one FHP instance (spec/10_state.md), the report record (spec/44_summary_and_report.md R170),
the inputs of the step, the reasons a step can stop, and the state after reset (R34). Status registers are enumerated
types without the reserved codes (spec/93_implementation_defined.md U11; log 28). -/

namespace Sys2Proof.Machine

/-- `PS`, the parser state (R13). -/
inductive ParserState where
  | idle | l2 | l3 | l4 | done
  deriving DecidableEq, Repr

/-- `MODE`: which of the two host commands runs (R16). -/
inductive Mode where
  | summarize | process
  deriving DecidableEq, Repr

/-- `L2_STATUS` (R17). -/
inductive L2Status where
  | none | ok | rejected
  deriving DecidableEq, Repr

/-- `L3_STATUS` (R18). -/
inductive L3Status where
  | none | ipv4 | ipv6 | arp | unsupported | malformed
  deriving DecidableEq, Repr

/-- `L4_STATUS` (R19). -/
inductive L4Status where
  | none | tcp | udp | unsupported | malformed
  deriving DecidableEq, Repr

/-- `SUM_KIND` (R25). -/
inductive SumKind where
  | na | v4 | v6
  deriving DecidableEq, Repr

/-- The Ethernet group: `ETH_DST`, `ETH_SRC`, `ETHERTYPE` (R20). -/
structure EthRegs where
  dst : MacAddr
  src : MacAddr
  etherType : BitVec 16
  deriving DecidableEq, Repr

/-- The IPv4 group: `IP4_IHL`, `IP4_TOTLEN`, `IP4_PROTO`, `IP4_SRC`, `IP4_DST` (R21). -/
structure Ip4Regs where
  ihl : BitVec 4
  totlen : BitVec 16
  proto : BitVec 8
  src : Ipv4Addr
  dst : Ipv4Addr
  deriving DecidableEq, Repr

/-- The IPv6 group: `IP6_PLEN`, `IP6_NH`, `IP6_SRC`, `IP6_DST` (R22). -/
structure Ip6Regs where
  plen : BitVec 16
  nh : BitVec 8
  src : Ipv6Addr
  dst : Ipv6Addr
  deriving DecidableEq, Repr

/-- The ARP group: `ARP_HTYPE`, `ARP_PALEN`, `ARP_OPER`, `ARP_SHA`, `ARP_SPA`, `ARP_THA`, `ARP_TPA` (R23). -/
structure ArpRegs where
  htype : BitVec 16
  palen : BitVec 8
  oper : BitVec 16
  sha : MacAddr
  spa : Ipv4Addr
  tha : MacAddr
  tpa : Ipv4Addr
  deriving DecidableEq, Repr

/-- The layer-4 group: `L4_SPORT`, `L4_DPORT` (R24). -/
structure PortRegs where
  sport : BitVec 16
  dport : BitVec 16
  deriving DecidableEq, Repr

/-- The summary registers `SUM_KIND`, `SUM_SRC`, `SUM_DST` (R25). -/
structure SumRegs where
  kind : SumKind
  src : BitVec 128
  dst : BitVec 128
  deriving DecidableEq, Repr

/-- The sentinel content of the summary registers: `NA` with both addresses 0 (R25, R144). -/
def SumRegs.sentinel : SumRegs := ⟨.na, 0, 0⟩

/-- The summary as a value (R160). -/
inductive Summary where
  | na
  | v4 (src dst : Ipv4Addr)
  | v6 (src dst : Ipv6Addr)
  deriving DecidableEq, Repr

/-- The Result of a decode (R31): the statuses, the cursor, the summary, and each group that R29 makes valid; an invalid
group is absent. -/
structure Result where
  l2 : L2Status
  l3 : L3Status
  l4 : L4Status
  off : Nat
  sum : SumRegs
  eth : Option EthRegs
  ip4 : Option Ip4Regs
  ip6 : Option Ip6Regs
  arp : Option ArpRegs
  l4key : Option (BitVec 8)
  ports : Option PortRegs
  deriving DecidableEq, Repr

/-- The report record (R170). -/
structure Report where
  label : Label
  l2Status : L2Status
  eth : Option EthRegs
  l3Status : L3Status
  ip4 : Option Ip4Regs
  ip6 : Option Ip6Regs
  arp : Option ArpRegs
  summary : Summary
  l4Status : L4Status
  l4key : Option (BitVec 8)
  ports : Option PortRegs
  deriving DecidableEq, Repr

/-- The host-visible registers that store something, in the order of their numbers 1 to 33 (R28). Number 0 is `CMD`, which is no
storage element; its accesses are host actions of their own. -/
inductive Reg where
  | flen | ps | off | l4key | mode | label | l2Status | l3Status | l4Status
  | sumKind | sumSrc | sumDst | ethDst | ethSrc | etherType
  | ip4Ihl | ip4Totlen | ip4Proto | ip4Src | ip4Dst
  | ip6Plen | ip6Nh | ip6Src | ip6Dst
  | arpHtype | arpPalen | arpOper | arpSha | arpSpa | arpTha | arpTpa
  | l4Sport | l4Dport
  deriving DecidableEq, Repr

/-- What the host can do to an instance in one transaction (R28, R40, R153). -/
inductive HostAction where
  /-- Write one byte of `FB`. -/
  | writeFb (offset : Nat) (byte : Byte)
  /-- Read one byte of `FB`. -/
  | readFb (offset : Nat)
  /-- Write `CMD`: mode bit, label, and the bits above the label (R16, R72). -/
  | writeCmd (mode : BitVec 1) (label : Label) (above : Nat)
  /-- Read `CMD`. -/
  | readCmd
  /-- Write another register; only `FLEN` takes the value. -/
  | writeReg (reg : Reg) (value : Nat)
  /-- Read another register. -/
  | readReg (reg : Reg)
  deriving DecidableEq, Repr

/-- The content of a register as a host sees it: an unsigned number (R28, R30), or for `LABEL` a value of the open type. -/
inductive RegValue where
  | num (n : Nat)
  | label (l : Label)
  deriving DecidableEq, Repr

/-- What the last host read gave (log 30). -/
inductive HostRead where
  /-- There was no host read yet. -/
  | none
  /-- The read delivered a value. -/
  | value (v : RegValue)
  /-- The read was of an invalid register or of a byte of `FB` nothing has written: it got no value, and the reading program is at
  fault (R29, R211, R217, U9). FHP goes on (R192). -/
  | programFault
  deriving DecidableEq, Repr

/-- One entry of the order in which the agents of an instance move (log 1). -/
inductive Input where
  /-- The parser moves. -/
  | tick
  /-- The host moves. -/
  | host (action : HostAction)
  /-- The output sink removes the oldest report record (R26). -/
  | sink
  /-- Reset is asserted (R210). -/
  | reset
  deriving DecidableEq, Repr

/-- The frame buffer's content: the bytes the host has written since the last reset, offsets strictly rising. An offset that is not
listed holds an unspecified byte (R34, R211). -/
structure Memory where
  cells : List Host.Cell
  /-- MODEL: how many resets there were, which fixes the free value of every byte not written since (log 4). -/
  epoch : Nat
  deriving DecidableEq, Repr

/-- A frame buffer nothing has written. -/
def Memory.blank : Memory := ⟨[], 0⟩

/-- The state of one FHP instance (R10). The last four fields are the model's own. -/
structure State where
  /-- `FB` (R11). -/
  fb : Memory
  /-- `FLEN` (R12). -/
  flen : Nat
  /-- `PS` (R13). -/
  ps : ParserState
  /-- `OFF`, the cursor (R14). -/
  off : Nat
  /-- `L4KEY` (R15). -/
  l4key : BitVec 8
  /-- `MODE` (R16). -/
  mode : Mode
  /-- `LABEL` (R16). -/
  label : Label
  /-- `L2_STATUS` (R17). -/
  l2Status : L2Status
  /-- `L3_STATUS` (R18). -/
  l3Status : L3Status
  /-- `L4_STATUS` (R19). -/
  l4Status : L4Status
  /-- The Ethernet group (R20). -/
  eth : EthRegs
  /-- The IPv4 group (R21). -/
  ip4 : Ip4Regs
  /-- The IPv6 group (R22). -/
  ip6 : Ip6Regs
  /-- The ARP group (R23). -/
  arp : ArpRegs
  /-- The layer-4 group (R24). -/
  ports : PortRegs
  /-- The summary registers (R25). -/
  sum : SumRegs
  /-- `REPORT_Q`, oldest record first (R26). -/
  reportQ : List Report
  /-- MODEL: what host, sink and reset line do next, and where the parser moves between them; when it is used up, only the
  parser moves (log 1). -/
  inputs : List Input
  /-- MODEL: what the last host read gave (log 30). -/
  hostData : HostRead
  /-- MODEL: how many times the field registers were made free values (log 7). -/
  freeCount : Nat
  /-- MODEL: the host has written `FLEN` since the last reset, which makes it valid (R211; log 3). -/
  flenWritten : Bool
  deriving DecidableEq, Repr

/-- Why a step stops with a fault. None is an effect of an operation of the opcode table. -/
inductive Fault where
  /-- A `MemRead` with `addr + n > FLEN` (R41, R43). Raised by `memRead`; SAFE, and no operation reaches it. -/
  | readBeyondFrame
  /-- A host read of `CMD`, which is write-only (R10, R28). Raised by a host read; SAFE. -/
  | writeOnlyRegisterRead
  /-- A host access to `FB` at an offset that is not below `FB_MAX` (R11, R40). Raised by a host access; SAFE. -/
  | noSuchFrameByte
  deriving DecidableEq, Repr

/-- Why a step is refused: the host left the interface the spec describes. -/
inductive Refusal where
  /-- An instruction that has no meaning yet. Raised by `exec`; SAFE. -/
  | notModelled (mnemonic : String)
  /-- A host write of `FB` below `FLEN`, or of `FLEN`, while a decode runs (U1, R214). Raised by a host write; SAFE: the
  spec's treatment is to refuse. -/
  | frameWriteWhileBusy
  /-- A host write `FLEN > FB_MAX` (R12, U10). Raised by a host write; SAFE: the spec's treatment is to refuse. -/
  | lengthBeyondCapacity
  deriving DecidableEq, Repr

/-- The state right after reset (R34, R210). `PS`, `OFF`, `MODE`, the statuses, the summary and `REPORT_Q` have the values
R34 states. `FB` lists no byte: each is a free value (log 4). `FLEN`, `LABEL`, `L4KEY` and the field registers are unspecified there
and invalid (R211): their content zero is a DESIGN CHOICE (log 3, 5, 6), UNSAFE for a claim that rests on it. -/
def State.reset : State where
  fb := .blank
  flen := 0
  ps := .idle
  off := 0
  l4key := 0
  mode := .summarize
  label := .first
  l2Status := .none
  l3Status := .none
  l4Status := .none
  eth := ⟨0, 0, 0⟩
  ip4 := ⟨0, 0, 0, 0, 0⟩
  ip6 := ⟨0, 0, 0, 0⟩
  arp := ⟨0, 0, 0, 0, 0, 0, 0⟩
  ports := ⟨0, 0⟩
  sum := .sentinel
  reportQ := []
  inputs := []
  hostData := .none
  freeCount := 0
  flenWritten := false

end Sys2Proof.Machine
end

