-- ==== Sys2Proof/Machine/Flags.lean ====
section
/-! DEFINITION. FHP's flags: the codes of the status registers (spec/10_state.md R13, R16 to R19, R25), the validity of
the registers (R29), and the level `DONE_OUT` (R27). -/

namespace Sys2Proof.Machine

/-- The code of `PS` (R13). -/
def ParserState.code : ParserState → BitVec 3
  | .idle => 0 | .l2 => 1 | .l3 => 2 | .l4 => 3 | .done => 4

/-- The code of `MODE` (R16). -/
def Mode.code : Mode → BitVec 1
  | .summarize => 0 | .process => 1

/-- The code of `L2_STATUS` (R17). -/
def L2Status.code : L2Status → BitVec 2
  | .none => 0 | .ok => 1 | .rejected => 2

/-- The code of `L3_STATUS` (R18). -/
def L3Status.code : L3Status → BitVec 3
  | .none => 0 | .ipv4 => 1 | .ipv6 => 2 | .arp => 3 | .unsupported => 4 | .malformed => 5

/-- The code of `L4_STATUS` (R19). -/
def L4Status.code : L4Status → BitVec 3
  | .none => 0 | .tcp => 1 | .udp => 2 | .unsupported => 3 | .malformed => 4

/-- The code of `SUM_KIND` (R25). -/
def SumKind.code : SumKind → BitVec 2
  | .na => 0 | .v4 => 1 | .v6 => 2

/-- A decode is in progress: `PS` is `L2`, `L3` or `L4` (R145). -/
def ParserState.busy : ParserState → Bool
  | .idle => false | .l2 => true | .l3 => true | .l4 => true | .done => false

/-- The layer-3 header was decoded as one that has a layer-4 payload: `L3_STATUS` is `IPV4` or `IPV6` (R15, R116). -/
def L3Status.hasPayload : L3Status → Bool
  | .ipv4 => true | .ipv6 => true | .none => false | .arp => false | .unsupported => false | .malformed => false

/-- The layer-4 header was decoded: `L4_STATUS` is `TCP` or `UDP` (R29). -/
def L4Status.hasPorts : L4Status → Bool
  | .tcp => true | .udp => true | .none => false | .unsupported => false | .malformed => false

/-- `DONE_OUT`: 1 exactly when `PS = DONE` (R27). -/
def State.doneOut (s : State) : Bool := s.ps == .done

/-- The validity of a register (R29). `FLEN` is invalid from reset until the host writes it (R211); `PS` and `MODE` have a reset
value and no condition. -/
def State.regValid (s : State) : Reg → Bool
  | .flen => s.flenWritten
  | .ps => true
  | .mode => true
  | .label => s.ps != .idle
  | .off | .l2Status | .l3Status | .l4Status | .sumKind | .sumSrc | .sumDst => s.ps == .done
  | .ethDst | .ethSrc | .etherType => s.l2Status == .ok
  | .ip4Ihl | .ip4Totlen | .ip4Proto | .ip4Src | .ip4Dst => s.l3Status == .ipv4
  | .ip6Plen | .ip6Nh | .ip6Src | .ip6Dst => s.l3Status == .ipv6
  | .arpHtype | .arpPalen | .arpOper | .arpSha | .arpSpa | .arpTha | .arpTpa => s.l3Status == .arp
  | .l4key => s.l3Status.hasPayload
  | .l4Sport | .l4Dport => s.l4Status.hasPorts

end Sys2Proof.Machine
end

