-- ==== Sys2Proof/Machine/Report.lean ====
section
/-! DEFINITION. The summary, the Result and the report record as views of the registers (spec/10_state.md R29, R31;
spec/44_summary_and_report.md R160, R170). -/

namespace Sys2Proof.Machine

/-- The value only when its register group is valid (R29: an invalid register holds no value). -/
def validOnly {α : Type} (valid : Bool) (x : α) : Option α := if valid then some x else none

/-- The summary the summary registers encode: a `V4` address is the low 32 bits (R25, R160). -/
def SumRegs.summary (r : SumRegs) : Summary :=
  match r.kind with
  | .na => .na
  | .v4 => .v4 (r.src.setWidth 32) (r.dst.setWidth 32)
  | .v6 => .v6 r.src r.dst

/-- Summary registers that hold two IPv4 addresses, zero-extended (R161). -/
def SumRegs.ofV4 (src dst : Ipv4Addr) : SumRegs := ⟨.v4, src.setWidth 128, dst.setWidth 128⟩

/-- Summary registers that hold two IPv6 addresses (R161). -/
def SumRegs.ofV6 (src dst : Ipv6Addr) : SumRegs := ⟨.v6, src, dst⟩

/-- The Result the registers hold (R31). -/
def State.result (s : State) : Result where
  l2 := s.l2Status
  l3 := s.l3Status
  l4 := s.l4Status
  off := s.off
  sum := s.sum
  eth := validOnly (s.l2Status == .ok) s.eth
  ip4 := validOnly (s.l3Status == .ipv4) s.ip4
  ip6 := validOnly (s.l3Status == .ipv6) s.ip6
  arp := validOnly (s.l3Status == .arp) s.arp
  l4key := validOnly s.l3Status.hasPayload s.l4key
  ports := validOnly s.l4Status.hasPorts s.ports

/-- The report record of a Result, with the label (R147, R170). -/
def Report.ofResult (label : Label) (r : Result) : Report where
  label := label
  l2Status := r.l2
  eth := r.eth
  l3Status := r.l3
  ip4 := r.ip4
  ip6 := r.ip6
  arp := r.arp
  summary := r.sum.summary
  l4Status := r.l4
  l4key := r.l4key
  ports := r.ports

/-- The record the `DONE` entry action appends (R147, R170). -/
def State.report (s : State) : Report := .ofResult s.label s.result

end Sys2Proof.Machine
end

