-- ==== Sys2Proof/Machine/Ops.lean ====
section
/-! DEFINITION. The shared operations: the frame buffer and `MemRead` (spec/20_memory.md R41 to R43), `START` (R144), the
`DONE` entry action (R147), and the entry action of the five events (spec/60_exceptions.md R186). FHP has no return from an
event (R189): the next accepted command leaves it. -/

namespace Sys2Proof.Machine

/-! ### The frame buffer -/

/-- The byte listed at an offset. -/
def lookupCell (cells : List Host.Cell) (a : Nat) : Option Byte :=
  match cells with
  | [] => none
  | c :: cs => if c.1 = a then some c.2 else lookupCell cs a

/-- The cells after a write of one byte, offsets still rising. -/
def insertCell (cells : List Host.Cell) (a : Nat) (b : Byte) : List Host.Cell :=
  match cells with
  | [] => [(a, b)]
  | c :: cs => if a < c.1 then (a, b) :: c :: cs else if a = c.1 then (a, b) :: cs else c :: insertCell cs a b

/-- The byte the host has written at an offset since the last reset; none where it has written none. -/
def Memory.written (m : Memory) (a : Nat) : Option Byte := lookupCell m.cells a

/-- What an offset the memory does not list holds: an unspecified byte, a free value (R34, R211, U13; log 4). -/
def Memory.unlisted (m : Memory) (a : Nat) : Byte := Config.unwrittenByte m.epoch a

/-- The byte of the frame buffer at an offset. -/
def Memory.read (m : Memory) (a : Nat) : Byte := (m.written a).getD (m.unlisted a)

/-- The frame buffer after a write of one byte; the canonical form is kept. -/
def Memory.write (m : Memory) (a : Nat) (b : Byte) : Memory := { m with cells := insertCell m.cells a b }

/-- The canonical form: offsets strictly rising. An unlisted offset has no value of its own, so every written byte is listed. -/
abbrev Memory.wf (m : Memory) : Prop := List.Pairwise (fun c d => c.1 < d.1) m.cells

/-- The length of the frame: `FLEN`, and while the host has not written it since reset an unspecified length that fits `FB`, a free
value (R12, R211, R213, U2, U13; log 3). -/
def State.frameLength (s : State) : Nat :=
  if s.flenWritten then s.flen else Config.unwrittenLength s.fb.epoch % (Config.fbMax + 1)

/-- The unsigned value of `n` bytes from `addr`, the byte at the lowest offset most significant (R41, R42). -/
def Memory.bigEndian (m : Memory) (addr : Nat) : Nat → Nat
  | 0 => 0
  | n + 1 => Memory.bigEndian m addr n * 256 + (m.read (addr + n)).toNat

/-- The value of `MemRead(addr, n)` where it is defined (R41). -/
def Memory.field (m : Memory) (addr n : Nat) : BitVec (8 * n) := BitVec.ofNat (8 * n) (m.bigEndian addr n)

/-- `MemRead(addr, n)`: defined only when `addr + n ≤ FLEN` (R41, R43); elsewhere a fault, which no operation reaches
(log 18). -/
def memRead (fb : Memory) (flen addr n : Nat) : Except Fault (BitVec (8 * n)) :=
  if addr + n ≤ flen then .ok (fb.field addr n) else .error .readBeyondFrame

/-! ### Accepting a command -/

/-- Every field register and `L4KEY` lose their value: their physical content is unspecified from here on (R29, R144), so
each is a free value of its number, the count of such commands and its old content (log 7). -/
def invalidateFields (s : State) : State :=
  let n := s.freeCount
  { s with
    eth := ⟨Config.stale _ 13 n s.eth.dst, Config.stale _ 14 n s.eth.src, Config.stale _ 15 n s.eth.etherType⟩
    ip4 := ⟨Config.stale _ 16 n s.ip4.ihl, Config.stale _ 17 n s.ip4.totlen, Config.stale _ 18 n s.ip4.proto,
      Config.stale _ 19 n s.ip4.src, Config.stale _ 20 n s.ip4.dst⟩
    ip6 := ⟨Config.stale _ 21 n s.ip6.plen, Config.stale _ 22 n s.ip6.nh, Config.stale _ 23 n s.ip6.src,
      Config.stale _ 24 n s.ip6.dst⟩
    arp := ⟨Config.stale _ 25 n s.arp.htype, Config.stale _ 26 n s.arp.palen, Config.stale _ 27 n s.arp.oper,
      Config.stale _ 28 n s.arp.sha, Config.stale _ 29 n s.arp.spa, Config.stale _ 30 n s.arp.tha,
      Config.stale _ 31 n s.arp.tpa⟩
    ports := ⟨Config.stale _ 32 n s.ports.sport, Config.stale _ 33 n s.ports.dport⟩
    l4key := Config.stale _ 4 n s.l4key
    freeCount := n + 1 }

/-- `START(mode, label)` as one atomic action (R144). -/
def startCommand (mode : Mode) (label : Label) (s : State) : State :=
  { invalidateFields s with
    mode := mode
    label := label
    l2Status := .none
    l3Status := .none
    l4Status := .none
    sum := .sentinel
    ps := .l2
    off := 0 }

/-- A `CMD` write: accepted exactly when `PS` is `IDLE` or `DONE` (R144), ignored while a decode runs (R145). -/
def acceptCommand (mode : Mode) (label : Label) (s : State) : State :=
  if s.ps.busy then s else startCommand mode label s

/-! ### Ending a decode -/

/-- The `DONE` entry action: in `PROCESS` mode one report record is appended, whole (R147, R172); `DONE_OUT` follows `PS`. -/
def enterDone (s : State) : State :=
  { s with
    ps := .done
    reportQ := match s.mode with
      | .process => s.reportQ ++ [s.report]
      | .summarize => s.reportQ }

/-- The five events (R181). -/
inductive Event where
  | rejected | unsupportedL3 | malformedL3 | unsupportedL4 | malformedL4
  deriving DecidableEq, Repr

/-- The status code an event writes (R181). -/
def Event.record (e : Event) (s : State) : State :=
  match e with
  | .rejected => { s with l2Status := .rejected }
  | .unsupportedL3 => { s with l3Status := .unsupported }
  | .malformedL3 => { s with l3Status := .malformed }
  | .unsupportedL4 => { s with l4Status := .unsupported }
  | .malformedL4 => { s with l4Status := .malformed }

/-- `raise Event`: the status code is written, the summary and every field register stay, `PS` becomes `DONE`, `OFF` stays,
and the `DONE` entry action is done (R186). Nothing is saved and no handler runs. -/
def raiseEvent (e : Event) (s : State) : State := enterDone (e.record s)

/-! ### Loading a decoded header -/

/-- A decoded Ethernet header: the group is written and the parser goes to `L3` at the payload (R143). -/
def loadEth (h : EthRegs) (payload : Nat) (s : State) : State :=
  { s with eth := h, l2Status := .ok, ps := .l3, off := payload }

/-- A decoded IPv4 header: group, status, summary, key and cursor (R121). -/
def loadIpv4 (h : Ip4Regs) (payload : Nat) (s : State) : State :=
  { s with
    ip4 := h, l3Status := .ipv4, sum := .ofV4 h.src h.dst, l4key := h.proto, ps := .l4, off := payload }

/-- A decoded IPv6 header: group, status, summary, key and cursor (R122). -/
def loadIpv6 (h : Ip6Regs) (payload : Nat) (s : State) : State :=
  { s with
    ip6 := h, l3Status := .ipv6, sum := .ofV6 h.src h.dst, l4key := h.nh, ps := .l4, off := payload }

/-- A decoded ARP packet: group, status and summary, the sender's protocol address as source; there is no layer 4, so
the decode ends (R123). -/
def loadArp (h : ArpRegs) (s : State) : State :=
  enterDone { s with arp := h, l3Status := .arp, sum := .ofV4 h.spa h.tpa }

/-- A decoded layer-4 header: ports and status, and the decode ends (R111, R112). -/
def loadPorts (status : L4Status) (h : PortRegs) (s : State) : State :=
  enterDone { s with ports := h, l4Status := status }

end Sys2Proof.Machine
end

