-- ==== Sys2Proof/Machine/Commands.lean ====
section
/-! DEFINITION. The two host commands (spec/43_l2_entry_and_commands.md R141, R142, R144, R145). -/

namespace Sys2Proof.Machine

/-- `CMD.SUMMARIZE` (R141): `START` with mode 0 when accepted (R144), no effect while a decode runs (R145). The label is
latched and nothing reads it. -/
def execCmdSummarize (label : Label) (s : State) : Host.Outcome State Fault Refusal :=
  .next (acceptCommand .summarize label s)

/-- `CMD.PROCESS` (R142): `START` with mode 1 when accepted (R144), no effect while a decode runs (R145). -/
def execCmdProcess (label : Label) (s : State) : Host.Outcome State Fault Refusal :=
  .next (acceptCommand .process label s)

end Sys2Proof.Machine
end

