-- ==== Sys2Proof/Machine/Operands.lean ====
section
/-! DEFINITION. The operand forms of the parser's operations: the six header views (spec/40_header_views.md R90 to R104).
A view is a function of the frame and a base offset (R98). `.ok none` is PT's 'not a valid header of this kind', `.ok (some …)`
the fields with, where there is one, the offset of the payload; `.error` is a `MemRead` outside the frame, which no view
reaches (R43). -/

namespace Sys2Proof.Machine

/-- `VIEW.ETH(base)` (R91, layout R61). -/
def viewEth (fb : Memory) (flen base : Nat) : Except Fault (Option (EthRegs × Nat)) :=
  let avail := flen - base
  if avail < Config.ethHlen then .ok none
  else do
    let dst ← memRead fb flen (base + 0) 6
    let src ← memRead fb flen (base + 6) 6
    let etype ← memRead fb flen (base + 12) 2
    return some (⟨dst, src, etype⟩, base + Config.ethHlen)

/-- The IHL nibble of an IPv4 header's first byte: its bits 3 to 0 (R62, R67). -/
def ihlOf (b : BitVec 8) : BitVec 4 := b.extractLsb' 0 4

/-- The IPv4 header length in bytes (R67, R104). -/
def headerLength (ihl : BitVec 4) : Nat := 4 * ihl.toNat

/-- `VIEW.IPV4(base)` (R92, layout R62). The version nibble and the total length are not examined (R99, R100). -/
def viewIpv4 (fb : Memory) (flen base : Nat) : Except Fault (Option (Ip4Regs × Nat)) :=
  let avail := flen - base
  if avail < Config.ipv4Min then .ok none
  else do
    let first ← memRead fb flen (base + 0) 1
    let ihl := ihlOf first
    let hlen := headerLength ihl
    if ihl.toNat < Config.ihlMin then return none
    else if avail < hlen then return none
    else
      let totlen ← memRead fb flen (base + 2) 2
      let proto ← memRead fb flen (base + 9) 1
      let src ← memRead fb flen (base + 12) 4
      let dst ← memRead fb flen (base + 16) 4
      return some (⟨ihl, totlen, proto, src, dst⟩, base + hlen)

/-- `VIEW.IPV6(base)` (R93, layout R63). -/
def viewIpv6 (fb : Memory) (flen base : Nat) : Except Fault (Option (Ip6Regs × Nat)) :=
  let avail := flen - base
  if avail < Config.ipv6Hlen then .ok none
  else do
    let plen ← memRead fb flen (base + 4) 2
    let nh ← memRead fb flen (base + 6) 1
    let src ← memRead fb flen (base + 8) 16
    let dst ← memRead fb flen (base + 24) 16
    return some (⟨plen, nh, src, dst⟩, base + Config.ipv6Hlen)

/-- `VIEW.ARP(base)` (R94, layout R64): the fixed Ethernet/IPv4 layout, whatever the packet's own length fields say. -/
def viewArp (fb : Memory) (flen base : Nat) : Except Fault (Option ArpRegs) :=
  let avail := flen - base
  if avail < Config.arpLen then .ok none
  else do
    let htype ← memRead fb flen (base + 0) 2
    let palen ← memRead fb flen (base + 5) 1
    let oper ← memRead fb flen (base + 6) 2
    let sha ← memRead fb flen (base + 8) 6
    let spa ← memRead fb flen (base + 14) 4
    let tha ← memRead fb flen (base + 18) 6
    let tpa ← memRead fb flen (base + 24) 4
    return some ⟨htype, palen, oper, sha, spa, tha, tpa⟩

/-- `VIEW.TCP(base)` (R95, layout R65): the whole fixed header must be present, only the ports are read. -/
def viewTcp (fb : Memory) (flen base : Nat) : Except Fault (Option PortRegs) :=
  let avail := flen - base
  if avail < Config.tcpMin then .ok none
  else do
    let sport ← memRead fb flen (base + 0) 2
    let dport ← memRead fb flen (base + 2) 2
    return some ⟨sport, dport⟩

/-- `VIEW.UDP(base)` (R96, layout R66). -/
def viewUdp (fb : Memory) (flen base : Nat) : Except Fault (Option PortRegs) :=
  let avail := flen - base
  if avail < Config.udpLen then .ok none
  else do
    let sport ← memRead fb flen (base + 0) 2
    let dport ← memRead fb flen (base + 2) 2
    return some ⟨sport, dport⟩

end Sys2Proof.Machine
end

