-- ==== Sys2Proof/Machine/Layer2.lean ====
section
/-! DEFINITION. The layer-2 operation (spec/43_l2_entry_and_commands.md R143). -/

namespace Sys2Proof.Machine

/-- `L2.ETH` (R143): the view at offset 0; on success the Ethernet group and `L3` at offset 14, on a frame shorter than 14
bytes the event `Rejected` with `OFF = 0` (R182). -/
def execL2Eth (s : State) : Host.Outcome State Fault Refusal :=
  match viewEth s.fb s.frameLength 0 with
  | .error f => .fault f
  | .ok none => .next (raiseEvent .rejected { s with off := 0 })
  | .ok (some (h, payload)) => .next (loadEth h payload s)

end Sys2Proof.Machine
end

