-- ==== Sys2Proof/Machine/Layer3.lean ====
section
/-! DEFINITION. The layer-3 dispatcher's operations (spec/42_l3_dispatcher.md R121 to R124). -/

namespace Sys2Proof.Machine

/-- `L3.IPV4` (R121). -/
def execL3Ipv4 (s : State) : Host.Outcome State Fault Refusal :=
  match viewIpv4 s.fb s.frameLength s.off with
  | .error f => .fault f
  | .ok none => .next (raiseEvent .malformedL3 s)
  | .ok (some (h, payload)) => .next (loadIpv4 h payload s)

/-- `L3.IPV6` (R122). -/
def execL3Ipv6 (s : State) : Host.Outcome State Fault Refusal :=
  match viewIpv6 s.fb s.frameLength s.off with
  | .error f => .fault f
  | .ok none => .next (raiseEvent .malformedL3 s)
  | .ok (some (h, payload)) => .next (loadIpv6 h payload s)

/-- `L3.ARP` (R123). -/
def execL3Arp (s : State) : Host.Outcome State Fault Refusal :=
  match viewArp s.fb s.frameLength s.off with
  | .error f => .fault f
  | .ok none => .next (raiseEvent .malformedL3 s)
  | .ok (some h) => .next (loadArp h s)

/-- `L3.OTHER` (R124): no byte of the payload is read; the key stays in `ETHERTYPE`. -/
def execL3Other (s : State) : Host.Outcome State Fault Refusal :=
  .next (raiseEvent .unsupportedL3 s)

end Sys2Proof.Machine
end

