-- ==== Sys2Proof/Machine/Layer4.lean ====
section
/-! DEFINITION. The layer-4 resolver's operations (spec/41_l4_resolver.md R111 to R113). -/

namespace Sys2Proof.Machine

/-- `L4.TCP` (R111). -/
def execL4Tcp (s : State) : Host.Outcome State Fault Refusal :=
  match viewTcp s.fb s.frameLength s.off with
  | .error f => .fault f
  | .ok none => .next (raiseEvent .malformedL4 s)
  | .ok (some h) => .next (loadPorts .tcp h s)

/-- `L4.UDP` (R112). -/
def execL4Udp (s : State) : Host.Outcome State Fault Refusal :=
  match viewUdp s.fb s.frameLength s.off with
  | .error f => .fault f
  | .ok none => .next (raiseEvent .malformedL4 s)
  | .ok (some h) => .next (loadPorts .udp h s)

/-- `L4.OTHER` (R113): no byte of the payload is read; the key stays in `L4KEY`. -/
def execL4Other (s : State) : Host.Outcome State Fault Refusal :=
  .next (raiseEvent .unsupportedL4 s)

end Sys2Proof.Machine
end

