-- ==== Sys2Proof/Machine/Dispatch.lean ====
section
/-! DEFINITION. The meaning of each operation, one arm per row of spec/opcode_table.json. -/

namespace Sys2Proof.Machine

def exec (i : Instr) (s : State) : Host.Outcome State Fault Refusal :=
  match i with
  | .cmdSummarize label => Sys2Proof.Machine.execCmdSummarize label s
  | .cmdProcess label => Sys2Proof.Machine.execCmdProcess label s
  | .l2Eth => Sys2Proof.Machine.execL2Eth s
  | .l3Ipv4 => Sys2Proof.Machine.execL3Ipv4 s
  | .l3Ipv6 => Sys2Proof.Machine.execL3Ipv6 s
  | .l3Arp => Sys2Proof.Machine.execL3Arp s
  | .l3Other _ => Sys2Proof.Machine.execL3Other s
  | .l4Tcp => Sys2Proof.Machine.execL4Tcp s
  | .l4Udp => Sys2Proof.Machine.execL4Udp s
  | .l4Other _ => Sys2Proof.Machine.execL4Other s

end Sys2Proof.Machine
end

