-- ==== Sys2Proof/Machine/HostPort.lean ====
section
/-! DEFINITION. The host's and the sink's side of an instance: the register file (spec/10_state.md R28), reads and writes
of registers and of `FB` (R10, R29, R40, R153; spec/20_memory.md R53), the sink's removal (R26), and reset (R210). A write to
`CMD` is not here: it selects an operation of the opcode table. -/

namespace Sys2Proof.Machine

/-- The number of a register (R28). -/
def Reg.number : Reg → Nat
  | .flen => 1 | .ps => 2 | .off => 3 | .l4key => 4 | .mode => 5 | .label => 6
  | .l2Status => 7 | .l3Status => 8 | .l4Status => 9 | .sumKind => 10 | .sumSrc => 11 | .sumDst => 12
  | .ethDst => 13 | .ethSrc => 14 | .etherType => 15
  | .ip4Ihl => 16 | .ip4Totlen => 17 | .ip4Proto => 18 | .ip4Src => 19 | .ip4Dst => 20
  | .ip6Plen => 21 | .ip6Nh => 22 | .ip6Src => 23 | .ip6Dst => 24
  | .arpHtype => 25 | .arpPalen => 26 | .arpOper => 27 | .arpSha => 28 | .arpSpa => 29 | .arpTha => 30 | .arpTpa => 31
  | .l4Sport => 32 | .l4Dport => 33

/-- The width of a register in bits (R28); `FLEN` has as many bits as `FB_MAX` needs, and `LABEL` is of the open type, which has no
width of its own (D6). -/
def Reg.width : Reg → Option Nat
  | .flen => some (Nat.log2 Config.fbMax + 1)
  | .ps => some 3 | .off => some 7 | .l4key => some 8 | .mode => some 1
  | .label => none
  | .l2Status => some 2 | .l3Status => some 3 | .l4Status => some 3
  | .sumKind => some 2 | .sumSrc => some 128 | .sumDst => some 128
  | .ethDst => some 48 | .ethSrc => some 48 | .etherType => some 16
  | .ip4Ihl => some 4 | .ip4Totlen => some 16 | .ip4Proto => some 8 | .ip4Src => some 32 | .ip4Dst => some 32
  | .ip6Plen => some 16 | .ip6Nh => some 8 | .ip6Src => some 128 | .ip6Dst => some 128
  | .arpHtype => some 16 | .arpPalen => some 8 | .arpOper => some 16 | .arpSha => some 48
  | .arpSpa => some 32 | .arpTha => some 48 | .arpTpa => some 32
  | .l4Sport => some 16 | .l4Dport => some 16

/-- The content of a register as the host sees it (R28, R30). -/
def State.regContent (s : State) : Reg → RegValue
  | .flen => .num s.flen
  | .ps => .num s.ps.code.toNat
  | .off => .num s.off
  | .l4key => .num s.l4key.toNat
  | .mode => .num s.mode.code.toNat
  | .label => .label s.label
  | .l2Status => .num s.l2Status.code.toNat
  | .l3Status => .num s.l3Status.code.toNat
  | .l4Status => .num s.l4Status.code.toNat
  | .sumKind => .num s.sum.kind.code.toNat
  | .sumSrc => .num s.sum.src.toNat
  | .sumDst => .num s.sum.dst.toNat
  | .ethDst => .num s.eth.dst.toNat
  | .ethSrc => .num s.eth.src.toNat
  | .etherType => .num s.eth.etherType.toNat
  | .ip4Ihl => .num s.ip4.ihl.toNat
  | .ip4Totlen => .num s.ip4.totlen.toNat
  | .ip4Proto => .num s.ip4.proto.toNat
  | .ip4Src => .num s.ip4.src.toNat
  | .ip4Dst => .num s.ip4.dst.toNat
  | .ip6Plen => .num s.ip6.plen.toNat
  | .ip6Nh => .num s.ip6.nh.toNat
  | .ip6Src => .num s.ip6.src.toNat
  | .ip6Dst => .num s.ip6.dst.toNat
  | .arpHtype => .num s.arp.htype.toNat
  | .arpPalen => .num s.arp.palen.toNat
  | .arpOper => .num s.arp.oper.toNat
  | .arpSha => .num s.arp.sha.toNat
  | .arpSpa => .num s.arp.spa.toNat
  | .arpTha => .num s.arp.tha.toNat
  | .arpTpa => .num s.arp.tpa.toNat
  | .l4Sport => .num s.ports.sport.toNat
  | .l4Dport => .num s.ports.dport.toNat

/-- A host read of a register: its value where it is valid; where it is not, no value, and the reading program is at fault (R29,
R211, R217, U9; log 13). Either way no side effect on FHP (R152). -/
def hostReadReg (r : Reg) (s : State) : Host.Outcome State Fault Refusal :=
  .next { s with hostData := if s.regValid r then .value (s.regContent r) else .programFault }

/-- A host read of `CMD`, which is write-only and stores nothing (R10, R16; log 15). -/
def hostReadCmd : Host.Outcome State Fault Refusal := .fault .writeOnlyRegisterRead

/-- A host write of `FLEN`: any length up to `FB_MAX` (R12), refused while a decode runs (R53, R214, U1). -/
def hostWriteLength (n : Nat) (s : State) : Host.Outcome State Fault Refusal :=
  if s.ps.busy then .refused .frameWriteWhileBusy
  else if n ≤ Config.fbMax then .next { s with flen := n, flenWritten := true }
  else .refused .lengthBeyondCapacity

/-- A host write of one byte of `FB` (R11, R40): while a decode runs only at an offset `≥ FLEN`, where it is harmless
(R214). -/
def hostWriteFb (a : Nat) (b : Byte) (s : State) : Host.Outcome State Fault Refusal :=
  if Config.fbMax ≤ a then .fault .noSuchFrameByte
  else if s.ps.busy && decide (a < s.frameLength) then .refused .frameWriteWhileBusy
  else .next { s with fb := s.fb.write a b }

/-- A host read of one byte of `FB` (R40): the byte the host has written since reset; where it has written none, no value, and the
reading program is at fault (R211; log 13). -/
def hostReadFb (a : Nat) (s : State) : Host.Outcome State Fault Refusal :=
  if Config.fbMax ≤ a then .fault .noSuchFrameByte
  else .next { s with
    hostData := match s.fb.written a with
      | some b => .value (.num b.toNat)
      | none => .programFault }

/-- A host write of a register other than `CMD`: `FLEN` takes the value, a write to a read-only register is ignored (R28). -/
def hostWriteReg (r : Reg) (v : Nat) (s : State) : Host.Outcome State Fault Refusal :=
  if r = .flen then hostWriteLength v s else .next s

/-- The output sink removes the oldest record of `REPORT_Q`, if there is one (R26, R172; log 16). -/
def sinkTake (s : State) : State := { s with reportQ := s.reportQ.tail }

/-- Reset, in any state (R210, R212): every register at its reset value, `REPORT_Q` empty, no byte of `FB` and no `FLEN` written.
What the environment does next and the model's own counters are not registers; the epoch of the free values goes up (log 17). -/
def assertReset (s : State) : State :=
  { State.reset with
    fb := { Memory.blank with epoch := s.fb.epoch + 1 }
    inputs := s.inputs, hostData := s.hostData, freeCount := s.freeCount }

end Sys2Proof.Machine
end

