-- ==== Sys2Proof/Machine/Turn.lean ====
section
/-! DEFINITION. Whose turn it is, and the fetch: the key that selects the next operation (spec/43_l2_entry_and_commands.md
R146; spec/30_encoding.md R68 to R70). -/

namespace Sys2Proof.Machine

/-- What one step does: it runs the operation a key selects, or something that is no operation of the opcode table. -/
inductive Turn where
  /-- The operation of this key runs in this state. -/
  | run (key : Key) (s : State)
  /-- No operation runs; this is the step's outcome. -/
  | other (outcome : Host.Outcome State Fault Refusal)

/-- The key the parser dispatches on: none in `IDLE` and `DONE`, where it waits for a command (R146). -/
def State.parserKey (s : State) : Option Key :=
  match s.ps with
  | .idle => none
  | .l2 => some .layer2
  | .l3 => some (.layer3 s.eth.etherType)
  | .l4 => some (.layer4 s.l4key)
  | .done => none

/-- The parser's turn: its one enabled operation, or waiting (R146, R221; log 20). -/
def parserTurn (s : State) : Turn :=
  match s.parserKey with
  | some k => .run k s
  | none => .other (.next s)

/-- A host transaction: a `CMD` write selects a command by its bit 0 (R70), the others are done at once. -/
def hostTurn (a : HostAction) (s : State) : Turn :=
  match a with
  | .writeFb offset byte => .other (hostWriteFb offset byte s)
  | .readFb offset => .other (hostReadFb offset s)
  | .writeCmd mode label above => .run (.command mode label above) s
  | .readCmd => .other hostReadCmd
  | .writeReg r v => .other (hostWriteReg r v s)
  | .readReg r => .other (hostReadReg r s)

/-- Whose turn it is: the next entry of `inputs`, which is used up; the parser's when there is none (log 1). -/
def State.turn (s : State) : Turn :=
  match s.inputs with
  | [] => parserTurn s
  | .tick :: rest => parserTurn { s with inputs := rest }
  | .host a :: rest => hostTurn a { s with inputs := rest }
  | .sink :: rest => .other (.next (sinkTake { s with inputs := rest }))
  | .reset :: rest => .other (.next (assertReset { s with inputs := rest }))

/-- The state in which the very next step runs the operation `i`: its key stands where `turn` fetches it, with the
preconditions R120 and R116 give the layer (log 22). A command is put before the inputs as a host write; a parser operation
puts the parser into its state, gives it the turn, loads the key, and makes the frame reach up to `OFF`. -/
def State.withInstr (s : State) (i : Instr) : State :=
  match i with
  | .cmdSummarize label => { s with inputs := .host (.writeCmd 0 label 0) :: s.inputs }
  | .cmdProcess label => { s with inputs := .host (.writeCmd 1 label 0) :: s.inputs }
  | .l2Eth => { s with inputs := .tick :: s.inputs, ps := .l2, off := 0, flenWritten := true }
  | .l3Ipv4 => atLayer3 Config.etypeIpv4
  | .l3Ipv6 => atLayer3 Config.etypeIpv6
  | .l3Arp => atLayer3 Config.etypeArp
  | .l3Other k => atLayer3 k
  | .l4Tcp => atLayer4 Config.protoTcp
  | .l4Udp => atLayer4 Config.protoUdp
  | .l4Other k => atLayer4 k
where
  atLayer3 (k : BitVec 16) : State :=
    { s with
      inputs := .tick :: s.inputs, ps := .l3, off := 14, flen := max s.flen 14, flenWritten := true, l2Status := .ok
      eth := { s.eth with etherType := k } }
  atLayer4 (k : BitVec 8) : State :=
    { s with
      inputs := .tick :: s.inputs, ps := .l4, off := 34, flen := max s.flen 34, flenWritten := true, l2Status := .ok
      l3Status := .ipv4, l4key := k }

end Sys2Proof.Machine
end

