-- ==== Sys2Proof/Machine/Step.lean ====
section
/-! DEFINITION. One step of an instance (spec/43_l2_entry_and_commands.md R146). -/

namespace Sys2Proof.Machine

/-- One step: the operation whose key the turn fetched, or the turn's own outcome. -/
def step (s : State) : Host.Outcome State Fault Refusal :=
  match s.turn with
  | .run k s' => exec (decode k) s'
  | .other o => o

/-- `s` with the instruction of `nbits` bits `w` standing where `step` fetches its next instruction (log 22). -/
def State.withFetchWord (s : State) (nbits w : Nat) : State :=
  match decodeTableWord nbits w with
  | some i => s.withInstr i
  | none => s

end Sys2Proof.Machine
end

