-- ==== Sys2Proof/Machine/FrameDecode.lean ====
section
/-! DEFINITION. The Result as one pure function of the frame (spec/43_l2_entry_and_commands.md R148). The step-wise machine
does not call it: that the two agree is a statement. -/

namespace Sys2Proof.Machine

/-- The Result before anything is decoded: no status, the sentinel summary, cursor 0, nothing valid (R148, first line). -/
def Result.empty : Result := ⟨.none, .none, .none, 0, .sentinel, none, none, none, none, none, none⟩

/-- The layer-4 part of `Decode`: reached with `L3_STATUS` `IPV4` or `IPV6`, the key and the payload base (R148). -/
def frameLayer4 (fb : Memory) (flen : Nat) (key : BitVec 8) (r : Result) : Result :=
  let avail := flen - r.off
  let ports : PortRegs := ⟨fb.field r.off 2, fb.field (r.off + 2) 2⟩
  if key = 6 then
    if avail < 20 then { r with l4 := .malformed } else { r with l4 := .tcp, ports := some ports }
  else if key = 17 then
    if avail < 8 then { r with l4 := .malformed } else { r with l4 := .udp, ports := some ports }
  else { r with l4 := .unsupported }

/-- The IPv4 arm of `Decode`, at the absolute offsets of R148. -/
def frameIpv4 (fb : Memory) (flen : Nat) (r : Result) : Result :=
  let avail := flen - 14
  if avail < 20 then { r with l3 := .malformed }
  else
    let ihl := ihlOf (fb.field 14 1)
    if ihl.toNat < 5 ∨ avail < 4 * ihl.toNat then { r with l3 := .malformed }
    else
      let h : Ip4Regs := ⟨ihl, fb.field 16 2, fb.field 23 1, fb.field 26 4, fb.field 30 4⟩
      frameLayer4 fb flen h.proto
        { r with
          l3 := .ipv4, ip4 := some h, sum := .ofV4 h.src h.dst, l4key := some h.proto
          off := 14 + 4 * ihl.toNat }

/-- The IPv6 arm of `Decode`, at the absolute offsets of R148. -/
def frameIpv6 (fb : Memory) (flen : Nat) (r : Result) : Result :=
  if flen - 14 < 40 then { r with l3 := .malformed }
  else
    let h : Ip6Regs := ⟨fb.field 18 2, fb.field 20 1, fb.field 22 16, fb.field 38 16⟩
    frameLayer4 fb flen h.nh
      { r with l3 := .ipv6, ip6 := some h, sum := .ofV6 h.src h.dst, l4key := some h.nh, off := 54 }

/-- The ARP arm of `Decode`, at the absolute offsets of R148. -/
def frameArp (fb : Memory) (flen : Nat) (r : Result) : Result :=
  if flen - 14 < 28 then { r with l3 := .malformed }
  else
    let h : ArpRegs :=
      ⟨fb.field 14 2, fb.field 19 1, fb.field 20 2, fb.field 22 6, fb.field 28 4, fb.field 32 6, fb.field 38 4⟩
    { r with l3 := .arp, arp := some h, sum := .ofV4 h.spa h.tpa }

/-- `Decode(FB, FLEN)` (R148). -/
def decodeFrame (fb : Memory) (flen : Nat) : Result :=
  if flen < 14 then { Result.empty with l2 := .rejected }
  else
    let eth : EthRegs := ⟨fb.field 0 6, fb.field 6 6, fb.field 12 2⟩
    let r : Result := { Result.empty with l2 := .ok, eth := some eth, off := 14 }
    if eth.etherType = 0x0800 then frameIpv4 fb flen r
    else if eth.etherType = 0x86DD then frameIpv6 fb flen r
    else if eth.etherType = 0x0806 then frameArp fb flen r
    else { r with l3 := .unsupported }

end Sys2Proof.Machine
end

