-- ==== Sys2Proof/Machine/System.lean ====
section
/-! DEFINITION. Several FHP instances and the output sink they share (spec/60_exceptions.md R197, R198; log 26). The order in
which the instances move is a schedule, a list of instance numbers; every schedule is allowed. -/

namespace Sys2Proof.Machine

/-- The instances, and the records the sink has taken, oldest first, each with the number of the instance it came from. -/
structure System where
  instances : List State
  sink : List (Nat × Report)
  deriving DecidableEq, Repr

/-- The record an instance hands to the sink in its next step: its oldest, when that step is the sink's (R26, R172). -/
def State.delivers (s : State) : List Report :=
  match s.inputs with
  | .sink :: _ => s.reportQ.take 1
  | _ => []

/-- One step of instance `i`; none when there is no such instance or its step stops. -/
def System.stepOf (i : Nat) (y : System) : Option System :=
  match y.instances[i]? with
  | none => none
  | some s =>
    match step s with
    | .next t => some ⟨y.instances.set i t, y.sink ++ s.delivers.map (Prod.mk i)⟩
    | .fault _ => none
    | .refused _ => none

/-- The instances moved in the order of a schedule. -/
def System.run (y : System) : List Nat → Option System
  | [] => some y
  | i :: rest =>
    match y.stepOf i with
    | some z => System.run z rest
    | none => none

/-- The records of instance `i` in the sink, oldest first. -/
def System.sinkOf (y : System) (i : Nat) : List Report :=
  (y.sink.filter fun e => e.1 == i).map Prod.snd

end Sys2Proof.Machine
end

