-- ==== Sys2Proof/Machine/Text.lean ====
section
/-! DEFINITION. The text of a summary at the output boundary (spec/44_summary_and_report.md R163 to R167). These are functions
of whoever reads the registers; no step of FHP uses them. `NA_TEXT` and `render_v6` are open parameters (R165, R166; log 25). -/

namespace Sys2Proof.Machine

/-- A text, as the list of its characters. -/
abbrev Text := List Char

/-- PT's DecodedSummary (R160). -/
structure AddressText where
  source : Text
  destination : Text
  deriving DecidableEq, Repr

/-- Texts joined by a separator; nothing for no text (R166). -/
def joinText (sep : Char) : List Text → Text
  | [] => []
  | [t] => t
  | t :: u :: ts => t ++ sep :: joinText sep (u :: ts)

/-- A number below 1000 in decimal without leading zeros (R164). -/
def decimalText (n : Nat) : Text :=
  if n < 10 then [Nat.digitChar n]
  else if n < 100 then [Nat.digitChar (n / 10), Nat.digitChar (n % 10)]
  else [Nat.digitChar (n / 100), Nat.digitChar (n / 10 % 10), Nat.digitChar (n % 10)]

/-- `render_v4`: the four bytes in decimal, most significant first, joined by dots (R164). -/
def renderV4 (a : Ipv4Addr) : Text :=
  joinText '.' [decimalText (a.extractLsb' 24 8).toNat, decimalText (a.extractLsb' 16 8).toNat,
    decimalText (a.extractLsb' 8 8).toNat, decimalText (a.extractLsb' 0 8).toNat]

/-- `hex`: a 16-bit group in lower-case hexadecimal without leading zeros (R166). -/
def hexText (n : Nat) : Text :=
  if n < 16 then [Nat.digitChar n]
  else if n < 256 then [Nat.digitChar (n / 16), Nat.digitChar (n % 16)]
  else if n < 4096 then [Nat.digitChar (n / 256), Nat.digitChar (n / 16 % 16), Nat.digitChar (n % 16)]
  else [Nat.digitChar (n / 4096), Nat.digitChar (n / 256 % 16), Nat.digitChar (n / 16 % 16), Nat.digitChar (n % 16)]

/-- The eight 16-bit groups of an address, first on the wire first (R166). -/
def groupsV6 (a : Ipv6Addr) : List Nat :=
  (List.range 8).map fun i => (a.extractLsb' (112 - 16 * i) 16).toNat

/-- How many consecutive zero groups begin at group `i`. -/
def zeroRun (gs : List Nat) (i : Nat) : Nat := ((gs.drop i).takeWhile (· == 0)).length

/-- Start and length of the longest run of zero groups, the leftmost on a tie (R166). -/
def longestZeroRun (gs : List Nat) : Nat × Nat :=
  (List.range gs.length).foldl (fun best i => if best.2 < zeroRun gs i then (i, zeroRun gs i) else best) (0, 0)

/-- The text of eight groups: the longest run of two or more zero groups is written `::` (R166). -/
def renderGroups (gs : List Nat) : Text :=
  let run := longestZeroRun gs
  if 2 ≤ run.2 then
    joinText ':' ((gs.take run.1).map hexText) ++ [':', ':'] ++ joinText ':' ((gs.drop (run.1 + run.2)).map hexText)
  else joinText ':' (gs.map hexText)

/-- `render_v6`, the default of the open parameter (R166). -/
def renderV6 (a : Ipv6Addr) : Text := renderGroups (groupsV6 a)

/-- The open parameters of the text form (R165, R166). -/
structure TextParams where
  naText : Text
  v6Text : Ipv6Addr → Text

/-- What R165 and R166 require of them: `render_v6` is injective, and `NA_TEXT` is not empty and is no address's text. -/
def TextParams.legal (p : TextParams) : Prop :=
  p.naText ≠ [] ∧ (∀ a, p.naText ≠ renderV4 a) ∧ (∀ a, p.naText ≠ p.v6Text a) ∧ Function.Injective p.v6Text

/-- `text(Summary)` (R163). An ARP summary is a `V4` one (R167). -/
def Summary.text (p : TextParams) : Summary → AddressText
  | .na => ⟨p.naText, p.naText⟩
  | .v4 src dst => ⟨renderV4 src, renderV4 dst⟩
  | .v6 src dst => ⟨p.v6Text src, p.v6Text dst⟩

end Sys2Proof.Machine
end

