-- ==== Sys2Proof/Machine/Formats.lean ====
section
/-! DEFINITION. The six header formats as byte strings, written from the layout tables (spec/30_encoding.md R61 to R66), the
frame notation built on them (R76, R77), and the host's launch of a frame (R77, R140, R213). The notation has no meaning
inside FHP (D24). -/

namespace Sys2Proof.Machine

/-- A number in `n` bytes, most significant byte first (R42, R76). -/
def bytesOf (n v : Nat) : List Byte :=
  match n with
  | 0 => []
  | k + 1 => bytesOf k (v / 256) ++ [BitVec.ofNat 8 v]

/-- `eth`: `HDR_ETH` (R61). -/
structure EthLine where
  dst : MacAddr
  src : MacAddr
  etherType : BitVec 16
  deriving DecidableEq, Repr

def EthLine.bytes (l : EthLine) : List Byte :=
  bytesOf 6 l.dst.toNat ++ bytesOf 6 l.src.toNat ++ bytesOf 2 l.etherType.toNat

/-- `ipv4`: `HDR_IPV4` with every field (R62) and the defaults of R76. -/
structure Ipv4Line where
  src : Ipv4Addr
  dst : Ipv4Addr
  proto : BitVec 8
  len : BitVec 16
  ihl : BitVec 4 := 5
  ver : BitVec 4 := 4
  tos : BitVec 8 := 0
  id : BitVec 16 := 0
  frag : BitVec 16 := 0x4000
  ttl : BitVec 8 := 64
  csum : BitVec 16 := 0
  opts : List Byte := []
  deriving DecidableEq, Repr

/-- `opts` has exactly `4*ihl - 20` bytes when `ihl ≥ 5`, else none (R76). -/
def Ipv4Line.wellFormed (l : Ipv4Line) : Bool := l.opts.length == 4 * l.ihl.toNat - 20

def Ipv4Line.bytes (l : Ipv4Line) : List Byte :=
  bytesOf 1 (l.ver.toNat * 16 + l.ihl.toNat) ++ bytesOf 1 l.tos.toNat ++ bytesOf 2 l.len.toNat ++ bytesOf 2 l.id.toNat ++
    bytesOf 2 l.frag.toNat ++ bytesOf 1 l.ttl.toNat ++ bytesOf 1 l.proto.toNat ++ bytesOf 2 l.csum.toNat ++
    bytesOf 4 l.src.toNat ++ bytesOf 4 l.dst.toNat ++ l.opts

/-- `ipv6`: `HDR_IPV6` with every field (R63) and the defaults of R76. -/
structure Ipv6Line where
  src : Ipv6Addr
  dst : Ipv6Addr
  nh : BitVec 8
  plen : BitVec 16
  ver : BitVec 4 := 6
  tc : BitVec 8 := 0
  flow : BitVec 20 := 0
  hop : BitVec 8 := 64
  deriving DecidableEq, Repr

def Ipv6Line.bytes (l : Ipv6Line) : List Byte :=
  bytesOf 4 (l.ver.toNat * 2 ^ 28 + l.tc.toNat * 2 ^ 20 + l.flow.toNat) ++ bytesOf 2 l.plen.toNat ++ bytesOf 1 l.nh.toNat ++
    bytesOf 1 l.hop.toNat ++ bytesOf 16 l.src.toNat ++ bytesOf 16 l.dst.toNat

/-- `arp`: `HDR_ARP` with every field (R64) and the defaults of R76. -/
structure ArpLine where
  op : BitVec 16
  sha : MacAddr
  spa : Ipv4Addr
  tha : MacAddr
  tpa : Ipv4Addr
  htype : BitVec 16 := 1
  ptype : BitVec 16 := 0x0800
  hlen : BitVec 8 := 6
  plen : BitVec 8 := 4
  deriving DecidableEq, Repr

def ArpLine.bytes (l : ArpLine) : List Byte :=
  bytesOf 2 l.htype.toNat ++ bytesOf 2 l.ptype.toNat ++ bytesOf 1 l.hlen.toNat ++ bytesOf 1 l.plen.toNat ++
    bytesOf 2 l.op.toNat ++ bytesOf 6 l.sha.toNat ++ bytesOf 4 l.spa.toNat ++ bytesOf 6 l.tha.toNat ++ bytesOf 4 l.tpa.toNat

/-- `tcp`: the fixed part of `HDR_TCP` (R65) and the defaults of R76. -/
structure TcpLine where
  sport : BitVec 16
  dport : BitVec 16
  seq : BitVec 32 := 1
  ack : BitVec 32 := 0
  doff : BitVec 4 := 5
  flags : BitVec 8 := 0x02
  win : BitVec 16 := 0xFFFF
  csum : BitVec 16 := 0
  urg : BitVec 16 := 0
  deriving DecidableEq, Repr

def TcpLine.bytes (l : TcpLine) : List Byte :=
  bytesOf 2 l.sport.toNat ++ bytesOf 2 l.dport.toNat ++ bytesOf 4 l.seq.toNat ++ bytesOf 4 l.ack.toNat ++
    bytesOf 1 (l.doff.toNat * 16) ++ bytesOf 1 l.flags.toNat ++ bytesOf 2 l.win.toNat ++ bytesOf 2 l.csum.toNat ++
    bytesOf 2 l.urg.toNat

/-- `udp`: `HDR_UDP` (R66) and the defaults of R76. -/
structure UdpLine where
  sport : BitVec 16
  dport : BitVec 16
  len : BitVec 16
  csum : BitVec 16 := 0
  deriving DecidableEq, Repr

def UdpLine.bytes (l : UdpLine) : List Byte :=
  bytesOf 2 l.sport.toNat ++ bytesOf 2 l.dport.toNat ++ bytesOf 2 l.len.toNat ++ bytesOf 2 l.csum.toNat

/-- One line of the frame notation (R76) with its pseudo-form `pad` (R77). -/
inductive FrameLine where
  | eth (l : EthLine)
  | ipv4 (l : Ipv4Line)
  | ipv6 (l : Ipv6Line)
  | arp (l : ArpLine)
  | tcp (l : TcpLine)
  | udp (l : UdpLine)
  | bytes (bs : List Byte)
  | pad (n : Nat)
  deriving DecidableEq, Repr

/-- The bytes a line expands to (R76, R77). -/
def FrameLine.expand : FrameLine → List Byte
  | .eth l => l.bytes
  | .ipv4 l => l.bytes
  | .ipv6 l => l.bytes
  | .arp l => l.bytes
  | .tcp l => l.bytes
  | .udp l => l.bytes
  | .bytes bs => bs
  | .pad n => List.replicate n 0

/-- A frame in the notation: lines, and the length a last line `trunc` keeps (R76, R77). -/
structure FrameText where
  lines : List FrameLine
  trunc : Option Nat := none
  deriving DecidableEq, Repr

/-- The bytes a frame expands to, its lines in order (R76, R77). -/
def FrameText.expand (f : FrameText) : List Byte :=
  let all := f.lines.flatMap FrameLine.expand
  match f.trunc with
  | none => all
  | some n => all.take n

/-- The host's writes of a byte string into `FB` from an offset. -/
def frameWrites (a : Nat) : List Byte → List Input
  | [] => []
  | b :: bs => .host (.writeFb a b) :: frameWrites (a + 1) bs

/-- The host's launch of a frame, in the order R213 gives: `FB` from offset 0, `FLEN`, then `CMD` with the mode and the label
(R77, R140). -/
def launch (mode : Mode) (label : Label) (frame : List Byte) : List Input :=
  frameWrites 0 frame ++
    [.host (.writeReg .flen frame.length), .host (.writeCmd mode.code label 0)]

/-- A byte string written into the frame buffer from an offset. -/
def Memory.load (m : Memory) (a : Nat) : List Byte → Memory
  | [] => m
  | b :: bs => Memory.load (m.write a b) (a + 1) bs

end Sys2Proof.Machine
end

