-- ==== Sys2Proof/Safety.lean ====
section
/-! DEFINITION. What claims about runs are stated in: the invariants of the reachable states (spec/10_state.md R33 and what
makes them inductive), a step that does not stop, the order of the parser states (spec/42_l3_dispatcher.md R128), a
host that keeps its duties (spec/70_reset_and_hazards.md R214), and the renaming of labels (R16). -/

namespace Sys2Proof.Machine

/-- The outcome is a next state, not a fault or a refusal. -/
def isNext (o : Host.Outcome State Fault Refusal) : Bool :=
  match o with
  | .next _ => true
  | .fault _ => false
  | .refused _ => false

/-- `k` steps, stopping at the first fault or refusal. -/
def run : Nat → State → Host.Outcome State Fault Refusal
  | 0, s => .next s
  | k + 1, s =>
    match step s with
    | .next t => run k t
    | .fault f => .fault f
    | .refused r => .refused r

/-- The place of a parser state in the chain `IDLE, L2, L3, L4, DONE` (R13, R128). -/
def ParserState.rank (p : ParserState) : Nat := p.code.toNat

/-- The twelve status triples a decode can end in (R33 item 8). -/
def doneTriples : List (L2Status × L3Status × L4Status) :=
  [(.rejected, .none, .none), (.ok, .unsupported, .none), (.ok, .malformed, .none), (.ok, .arp, .none),
   (.ok, .ipv4, .tcp), (.ok, .ipv4, .udp), (.ok, .ipv4, .unsupported), (.ok, .ipv4, .malformed),
   (.ok, .ipv6, .tcp), (.ok, .ipv6, .udp), (.ok, .ipv6, .unsupported), (.ok, .ipv6, .malformed)]

/-- The eight invariants of R33, item by item. -/
structure State.Reachable33 (s : State) : Prop where
  rejected : s.l2Status = .rejected →
    s.l3Status = .none ∧ s.l4Status = .none ∧ s.sum.kind = .na ∧ (s.ps = .done → s.off = 0)
  layer3 : s.l3Status ≠ .none → s.l2Status = .ok
  layer4 : s.l4Status ≠ .none → s.l3Status.hasPayload = true
  resolved : s.ps = .done → s.l3Status.hasPayload = true → s.l4Status ≠ .none
  kindV6 : s.sum.kind = .v6 ↔ s.l3Status = .ipv6
  kindV4 : s.sum.kind = .v4 ↔ (s.l3Status = .ipv4 ∨ s.l3Status = .arp)
  kindNa : s.sum.kind = .na ↔ (s.l3Status = .none ∨ s.l3Status = .unsupported ∨ s.l3Status = .malformed)
  sentinel : s.sum.kind = .na → s.sum.src = 0 ∧ s.sum.dst = 0
  upperZero : s.sum.kind = .v4 → s.sum.src.extractLsb' 32 96 = 0 ∧ s.sum.dst.extractLsb' 32 96 = 0
  atL3 : s.ps = .l3 → s.l2Status = .ok ∧ s.off = 14 ∧ 14 ≤ s.frameLength
  atL4 : s.ps = .l4 → s.l3Status.hasPayload = true ∧ s.off ≤ s.frameLength
  triple : s.ps = .done → (s.l2Status, s.l3Status, s.l4Status) ∈ doneTriples

/-- What a layer-3 outcome says of the key and the cursor (R14, R15, R18, R72). -/
def State.keysAgree (s : State) : Prop :=
  match s.l3Status with
  | .none => True
  | .ipv4 => s.eth.etherType = Config.etypeIpv4 ∧ s.l4key = s.ip4.proto ∧ 5 ≤ s.ip4.ihl.toNat ∧
      s.off = 14 + 4 * s.ip4.ihl.toNat
  | .ipv6 => s.eth.etherType = Config.etypeIpv6 ∧ s.l4key = s.ip6.nh ∧ s.off = 54
  | .arp => s.eth.etherType = Config.etypeArp ∧ s.off = 14
  | .unsupported => s.eth.etherType ∉ listedEtherTypes ∧ s.off = 14
  | .malformed => s.eth.etherType ∈ listedEtherTypes ∧ s.off = 14

/-- What a layer-4 outcome says of the key (R19, R181). -/
def State.resolverAgrees (s : State) : Prop :=
  match s.l4Status with
  | .none => True
  | .tcp => s.l4key = Config.protoTcp
  | .udp => s.l4key = Config.protoUdp
  | .unsupported => s.l4key ∉ listedProtocols
  | .malformed => s.l4key ∈ listedProtocols

/-- The summary of every layer-3 outcome (R161): the sentinel where no header was decoded, else the two addresses. -/
def State.summaryAgrees (s : State) : Prop :=
  match s.l3Status with
  | .none => s.sum = ⟨.na, 0, 0⟩
  | .ipv4 => s.sum = ⟨.v4, s.ip4.src.setWidth 128, s.ip4.dst.setWidth 128⟩
  | .ipv6 => s.sum = ⟨.v6, s.ip6.src, s.ip6.dst⟩
  | .arp => s.sum = ⟨.v4, s.arp.spa.setWidth 128, s.arp.tpa.setWidth 128⟩
  | .unsupported => s.sum = ⟨.na, 0, 0⟩
  | .malformed => s.sum = ⟨.na, 0, 0⟩

/-- `t` is `u` after the `DONE` entry action (R147): `PS = DONE`, in `PROCESS` mode exactly one record, of `t` itself, behind the
old ones, in `SUMMARIZE` mode none, and nothing else changed. -/
def DoneFrom (u t : State) : Prop :=
  t = { u with ps := .done, reportQ := t.reportQ } ∧
    t.reportQ = match u.mode with
      | .process => u.reportQ ++ [t.report]
      | .summarize => u.reportQ

/-- A record has the parts its statuses say, and a rejection or an accepted Ethernet header (R170). -/
structure Report.WellFormed (r : Report) : Prop where
  layer2 : r.l2Status ≠ .none
  eth : r.eth.isSome = true ↔ r.l2Status = .ok
  ip4 : r.ip4.isSome = true ↔ r.l3Status = .ipv4
  ip6 : r.ip6.isSome = true ↔ r.l3Status = .ipv6
  arp : r.arp.isSome = true ↔ r.l3Status = .arp
  l4key : r.l4key.isSome = true ↔ r.l3Status.hasPayload = true
  ports : r.ports.isSome = true ↔ r.l4Status.hasPorts = true

/-- The invariant of a run: R33, the statuses before a layer has run, the keys, the summary (R161), the cursor's range, the
canonical form and extent of `FB`, the range of `FLEN` (R12), and whole records in `REPORT_Q` (R172). -/
structure State.Inv (s : State) : Prop where
  r33 : s.Reachable33
  notStarted : (s.ps = .idle ∨ s.ps = .l2) →
    s.l2Status = .none ∧ s.l3Status = .none ∧ s.l4Status = .none ∧ s.off = 0
  beforeL3 : s.ps = .l3 → s.l3Status = .none ∧ s.l4Status = .none
  beforeL4 : s.ps = .l4 → s.l4Status = .none
  keys : s.keysAgree
  resolver : s.resolverAgrees
  summary : s.summaryAgrees
  cursor : s.off ≤ 74
  length : s.flen ≤ Config.fbMax
  canonical : s.fb.wf
  extent : ∀ c ∈ s.fb.cells, c.1 < Config.fbMax
  reports : ∀ r ∈ s.reportQ, r.WellFormed

/-- What happens next is nothing the interface rules out: no read of the write-only `CMD` (R10), no access to `FB` outside it (R11), no
write of the frame or its length while a decode runs (R214), no length above `FB_MAX` (R12). Reads of any register and of `FB`,
commands at any time, writes to read-only registers, the sink, reset and any waiting are all allowed (R28, R153). -/
def State.hostKeepsDuty (s : State) : Bool :=
  match s.inputs with
  | [] => true
  | .tick :: _ => true
  | .sink :: _ => true
  | .reset :: _ => true
  | .host .readCmd :: _ => false
  | .host (.writeCmd _ _ _) :: _ => true
  | .host (.readReg _) :: _ => true
  | .host (.readFb a) :: _ => decide (a < Config.fbMax)
  | .host (.writeFb a _) :: _ => decide (a < Config.fbMax) && (!s.ps.busy || decide (s.frameLength ≤ a))
  | .host (.writeReg r n) :: _ => r != .flen || (!s.ps.busy && decide (n ≤ Config.fbMax))

/-- The host keeps its duties as long as the run goes: in every state the run reaches, what happens next is allowed. -/
def HostKeepsDuties (s : State) : Prop := ∀ (k : Nat) (t : State), run k s = .next t → t.hostKeepsDuty = true

/-! ### Renaming labels: `f` on every label of a state -/

def Report.relabel (f : Label → Label) (r : Report) : Report := { r with label := f r.label }

def RegValue.relabel (f : Label → Label) : RegValue → RegValue
  | .num n => .num n
  | .label l => .label (f l)

def HostRead.relabel (f : Label → Label) : HostRead → HostRead
  | .none => .none
  | .value v => .value (v.relabel f)
  | .programFault => .programFault

def HostAction.relabel (f : Label → Label) : HostAction → HostAction
  | .writeFb offset byte => .writeFb offset byte
  | .readFb offset => .readFb offset
  | .writeCmd mode label above => .writeCmd mode (f label) above
  | .readCmd => .readCmd
  | .writeReg reg value => .writeReg reg value
  | .readReg reg => .readReg reg

def Input.relabel (f : Label → Label) : Input → Input
  | .tick => .tick
  | .host action => .host (action.relabel f)
  | .sink => .sink
  | .reset => .reset

/-- The state with every label renamed: the latched one, those in `REPORT_Q`, those still to be written, and one a host read gave. -/
def State.relabel (f : Label → Label) (s : State) : State :=
  { s with
    label := f s.label
    reportQ := s.reportQ.map (Report.relabel f)
    inputs := s.inputs.map (Input.relabel f)
    hostData := s.hostData.relabel f }

end Sys2Proof.Machine
end

