-- ==== Sys2Proof/Certificates/Slice0/Obligations.lean ====
section
/-! DEFINITION. The statements for the provers, in the order of the spec's files. Where one says what an operation leaves
unchanged, it says so by an equation `t = { s with … }` that names every field that may differ; `DoneFrom u t` (Safety.lean)
says that `t` is `u` after the `DONE` entry action of R147. -/

open Sys2Proof Sys2Proof.Machine

/-! ### Keys and encodings -/

/-- R68 (with the spec's own decision D8 and log 27), R69, R70 (decision D6), R71: bit 0 of a `CMD` write selects the command,
state `L2` has one operation, the ethertype and the next-protocol value select by equality over their whole width, and a default
row applies exactly when no listed value equals the key. -/
def Obligations.EveryKeySelectsItsRow : Prop :=
  (∀ label above, decode (.command 0 label above) = .cmdSummarize label) ∧
  (∀ label above, decode (.command 1 label above) = .cmdProcess label) ∧
  decode .layer2 = .l2Eth ∧
  (∀ k, (decode (.layer3 k) = .l3Ipv4 ↔ k = 0x0800) ∧ (decode (.layer3 k) = .l3Ipv6 ↔ k = 0x86DD) ∧
    (decode (.layer3 k) = .l3Arp ↔ k = 0x0806) ∧
    (decode (.layer3 k) = .l3Other k ↔ (k ≠ 0x0800 ∧ k ≠ 0x86DD ∧ k ≠ 0x0806))) ∧
  (∀ k, (decode (.layer4 k) = .l4Tcp ↔ k = 6) ∧ (decode (.layer4 k) = .l4Udp ↔ k = 17) ∧
    (decode (.layer4 k) = .l4Other k ↔ (k ≠ 6 ∧ k ≠ 17)))

/-- Decode and encode agree on all of `Instr`: every well-formed operation, with every label and every default key, is what the
key it encodes to selects. -/
def Obligations.DecodeOfEncodeIsTheOperation : Prop :=
  ∀ i : Instr, i.wellFormed = true → decode (encode i) = i

/-- The other direction: every key selects a well-formed operation whose encoding is that key, but for the bits of a `CMD` write
above the mode bit and the label, which R72 says are ignored. -/
def Obligations.EncodeOfDecodeIsTheKey : Prop :=
  ∀ k : Key, (decode k).wellFormed = true ∧ encode (decode k) = k.trimmed

/-- A few words of the opcode table, written out from spec/30_encoding.md, decode to the operation they stand for. -/
def Obligations.TableWordsDecode : Prop :=
  decodeTableWord 16 0x0800 = some .l3Ipv4 ∧ decodeTableWord 16 0x86DD = some .l3Ipv6 ∧
  decodeTableWord 16 0x0806 = some .l3Arp ∧ decodeTableWord 16 0x1234 = some (.l3Other 0x1234) ∧
  decodeTableWord 8 6 = some .l4Tcp ∧ decodeTableWord 8 17 = some .l4Udp ∧
  decodeTableWord 8 58 = some (.l4Other 58) ∧ decodeTableWord 0 0 = some .l2Eth

/-- A step runs the decoded operation: the parser's key stands in `PS`, `ETHERTYPE` and `L4KEY`, a command's in the host's write
to `CMD`. The parser moves when no input is left or at a `tick`, which is used up; without a key it waits (R146). -/
def Obligations.StepRunsTheSelectedOperation : Prop :=
  ∀ (s : State) (rest : List Input),
    (s.ps = .l2 → s.parserKey = some .layer2) ∧
    (s.ps = .l3 → s.parserKey = some (.layer3 s.eth.etherType)) ∧
    (s.ps = .l4 → s.parserKey = some (.layer4 s.l4key)) ∧
    ((s.ps = .idle ∨ s.ps = .done) → s.parserKey = none) ∧
    (∀ k, s.parserKey = some k → s.inputs = [] → step s = exec (decode k) s) ∧
    (∀ k, s.parserKey = some k → step { s with inputs := .tick :: rest } = exec (decode k) { s with inputs := rest }) ∧
    (∀ mode label above, step { s with inputs := .host (.writeCmd mode label above) :: rest } =
      exec (decode (.command mode label above)) { s with inputs := rest }) ∧
    (s.parserKey = none → s.inputs = [] → step s = .next s) ∧
    (s.parserKey = none → step { s with inputs := .tick :: rest } = .next { s with inputs := rest })

/-! ### Memory -/

/-- R41, R42, R43: inside the frame `MemRead(addr, n)` is the sum of its bytes, the byte at the lowest offset most significant;
where `addr + n > FLEN` R41 does not define it, and the fault is the model's choice, which R43 allows (log 18). -/
def Obligations.MemReadIsBigEndianInsideTheFrame : Prop :=
  ∀ (fb : Memory) (flen addr n : Nat), 1 ≤ n → n ≤ 16 →
    (addr + n ≤ flen → ∃ v : BitVec (8 * n), memRead fb flen addr n = .ok v ∧
      v.toNat = ∑ i ∈ Finset.range n, (fb.read (addr + i)).toNat * 256 ^ (n - 1 - i)) ∧
    (flen < addr + n → memRead fb flen addr n = .error .readBeyondFrame)

/-- R44 and R53: no operation changes a byte of `FB` or `FLEN`, and none touches what the environment does next. -/
def Obligations.NoOperationWritesTheFrame : Prop :=
  ∀ (i : Instr) (s t : State), exec i s = .next t →
    (∀ a, t.fb.read a = s.fb.read a) ∧ t.fb = s.fb ∧ t.flen = s.flen ∧ t.inputs = s.inputs ∧ t.hostData = s.hostData

/-- R43, R192: every operation answers a next state in every state, so no `MemRead` of any run lies outside the frame and no
frame of any length or content stops the machine. -/
def Obligations.EveryOperationAnswersANextState : Prop :=
  ∀ (i : Instr) (s : State), ∃ t, exec i s = .next t

/-! ### The header formats: decode of an assembled header gives its fields back -/

/-- `HDR_ETH` (R61, R91): an Ethernet header with any field values, anywhere in a frame, loaded over whatever `FB` held, is read
back by `VIEW.ETH`. -/
def Obligations.EthernetHeaderReadsBack : Prop :=
  ∀ (m : Memory) (l : EthLine) (pre post : List Byte),
    viewEth (m.load 0 (pre ++ l.bytes ++ post)) (pre ++ l.bytes ++ post).length pre.length =
      .ok (some (⟨l.dst, l.src, l.etherType⟩, pre.length + 14))

/-- `HDR_IPV4` (R62, R92): an IPv4 header with any field values, `IHL` from 5 to 15 and its options, is read back by
`VIEW.IPV4`, with the payload `4*IHL` bytes on. -/
def Obligations.Ipv4HeaderReadsBack : Prop :=
  ∀ (m : Memory) (l : Ipv4Line) (pre post : List Byte), l.wellFormed = true → 5 ≤ l.ihl.toNat →
    viewIpv4 (m.load 0 (pre ++ l.bytes ++ post)) (pre ++ l.bytes ++ post).length pre.length =
      .ok (some (⟨l.ihl, l.len, l.proto, l.src, l.dst⟩, pre.length + 4 * l.ihl.toNat))

/-- `HDR_IPV6` (R63, R93): an IPv6 header with any field values is read back by `VIEW.IPV6`. -/
def Obligations.Ipv6HeaderReadsBack : Prop :=
  ∀ (m : Memory) (l : Ipv6Line) (pre post : List Byte),
    viewIpv6 (m.load 0 (pre ++ l.bytes ++ post)) (pre ++ l.bytes ++ post).length pre.length =
      .ok (some (⟨l.plen, l.nh, l.src, l.dst⟩, pre.length + 40))

/-- `HDR_ARP` (R64, R94): an ARP packet with any field values, its own length fields among them, is read back by `VIEW.ARP`. -/
def Obligations.ArpPacketReadsBack : Prop :=
  ∀ (m : Memory) (l : ArpLine) (pre post : List Byte),
    viewArp (m.load 0 (pre ++ l.bytes ++ post)) (pre ++ l.bytes ++ post).length pre.length =
      .ok (some ⟨l.htype, l.plen, l.op, l.sha, l.spa, l.tha, l.tpa⟩)

/-- `HDR_TCP` and `HDR_UDP` (R65, R66, R95, R96): the ports of a TCP or UDP header with any field values are read back. -/
def Obligations.TransportHeadersReadBack : Prop :=
  (∀ (m : Memory) (l : TcpLine) (pre post : List Byte),
    viewTcp (m.load 0 (pre ++ l.bytes ++ post)) (pre ++ l.bytes ++ post).length pre.length =
      .ok (some ⟨l.sport, l.dport⟩)) ∧
  (∀ (m : Memory) (l : UdpLine) (pre post : List Byte),
    viewUdp (m.load 0 (pre ++ l.bytes ++ post)) (pre ++ l.bytes ++ post).length pre.length =
      .ok (some ⟨l.sport, l.dport⟩))

/-! ### The operations -/

/-- `CMD.SUMMARIZE` and `CMD.PROCESS` (R144, the spec's own decisions D19 and D21): accepted exactly in `IDLE` and `DONE`. Then
the mode and the label are latched, the statuses and the summary cleared, and the parser stands at `(L2, 0)`; every field
register and `L4KEY` becomes invalid, its content unspecified, a free value (log 7); nothing else changes. -/
def Obligations.AcceptedCommandStartsADecode : Prop :=
  ∀ (s : State) (label : Label) (p : Instr × Mode),
    p = (.cmdSummarize label, .summarize) ∨ p = (.cmdProcess label, .process) →
    ((s.ps = .idle ∨ s.ps = .done) → ∃ t, exec p.1 s = .next t ∧
      t = { s with
        mode := p.2, label := label, l2Status := .none, l3Status := .none, l4Status := .none
        sum := ⟨.na, 0, 0⟩, ps := .l2, off := 0
        eth := t.eth, ip4 := t.ip4, ip6 := t.ip6, arp := t.arp, ports := t.ports, l4key := t.l4key
        freeCount := t.freeCount } ∧
      (∀ r : Reg, r ∉ [Reg.flen, Reg.ps, Reg.mode, Reg.label] → t.regValid r = false)) ∧
    (¬ (s.ps = .idle ∨ s.ps = .done) → exec p.1 s = .next s)

/-- A `CMD` write while `PS ∈ {L2, L3, L4}` is ignored (R145, the spec's own decision D19). -/
def Obligations.CommandWhileBusyIsIgnored : Prop :=
  ∀ (s : State) (mode : BitVec 1) (label : Label) (above : Nat) (rest : List Input),
    (s.ps = .l2 ∨ s.ps = .l3 ∨ s.ps = .l4) →
    exec (decode (.command mode label above)) s = .next s ∧
    step { s with inputs := .host (.writeCmd mode label above) :: rest } = .next { s with inputs := rest }

/-- `L2.ETH` (R143), the operation of state `L2`, on a frame of at least 14 bytes: the Ethernet group, `L2_STATUS = OK` and
`(L3, 14)`, nothing else; on a shorter frame the event `Rejected` at `OFF = 0` and the `DONE` entry action, nothing else. -/
def Obligations.EthernetOperationResult : Prop :=
  ∀ s : State,
    (s.ps = .l2 → s.inputs = [] → step s = exec .l2Eth s) ∧
    (14 ≤ s.frameLength → exec .l2Eth s = .next { s with
      eth := ⟨s.fb.field 0 6, s.fb.field 6 6, s.fb.field 12 2⟩, l2Status := .ok, ps := .l3, off := 14 }) ∧
    (s.frameLength < 14 → ∃ t, exec .l2Eth s = .next t ∧ DoneFrom { s with l2Status := .rejected, off := 0 } t)

/-- `L3.IPV4` (R121), selected in `L3` by the key `0x0800`, with the header at `OFF`: when 20 bytes are there, `IHL ≥ 5` and
`4*IHL` bytes are there, the IPv4 group, the status, the zero-extended addresses as summary, the key, and `(L4, OFF + 4*IHL)`,
nothing else; otherwise `MalformedL3`. -/
def Obligations.Ipv4OperationResult : Prop :=
  ∀ s : State,
    let ihl : BitVec 4 := (s.fb.field s.off 1).extractLsb' 0 4
    let src : Ipv4Addr := s.fb.field (s.off + 12) 4
    let dst : Ipv4Addr := s.fb.field (s.off + 16) 4
    let proto : BitVec 8 := s.fb.field (s.off + 9) 1
    let valid := 20 ≤ s.frameLength - s.off ∧ 5 ≤ ihl.toNat ∧ 4 * ihl.toNat ≤ s.frameLength - s.off
    (s.ps = .l3 → s.eth.etherType = 0x0800 → s.inputs = [] → step s = exec .l3Ipv4 s) ∧
    (valid → exec .l3Ipv4 s = .next { s with
      ip4 := ⟨ihl, s.fb.field (s.off + 2) 2, proto, src, dst⟩, l3Status := .ipv4
      sum := ⟨.v4, src.setWidth 128, dst.setWidth 128⟩, l4key := proto, ps := .l4, off := s.off + 4 * ihl.toNat }) ∧
    (¬ valid → ∃ t, exec .l3Ipv4 s = .next t ∧ DoneFrom { s with l3Status := .malformed } t)

/-- `L3.IPV6` (R122), selected in `L3` by the key `0x86DD`, with the header at `OFF`: when 40 bytes are there, the IPv6 group,
the status, the addresses as summary, the key, and `(L4, OFF + 40)`, nothing else; otherwise `MalformedL3`. -/
def Obligations.Ipv6OperationResult : Prop :=
  ∀ s : State,
    let src : Ipv6Addr := s.fb.field (s.off + 8) 16
    let dst : Ipv6Addr := s.fb.field (s.off + 24) 16
    let nh : BitVec 8 := s.fb.field (s.off + 6) 1
    (s.ps = .l3 → s.eth.etherType = 0x86DD → s.inputs = [] → step s = exec .l3Ipv6 s) ∧
    (40 ≤ s.frameLength - s.off → exec .l3Ipv6 s = .next { s with
      ip6 := ⟨s.fb.field (s.off + 4) 2, nh, src, dst⟩, l3Status := .ipv6
      sum := ⟨.v6, src, dst⟩, l4key := nh, ps := .l4, off := s.off + 40 }) ∧
    (s.frameLength - s.off < 40 → ∃ t, exec .l3Ipv6 s = .next t ∧ DoneFrom { s with l3Status := .malformed } t)

/-- `L3.ARP` (R123), selected in `L3` by the key `0x0806`, with the packet at `OFF`: when 28 bytes are there, the ARP group, the
status, the sender's and the target's protocol address as summary (the spec's own decision D14), and the `DONE` entry action,
nothing else; otherwise `MalformedL3`. -/
def Obligations.ArpOperationResult : Prop :=
  ∀ s : State,
    let spa : Ipv4Addr := s.fb.field (s.off + 14) 4
    let tpa : Ipv4Addr := s.fb.field (s.off + 24) 4
    (s.ps = .l3 → s.eth.etherType = 0x0806 → s.inputs = [] → step s = exec .l3Arp s) ∧
    (28 ≤ s.frameLength - s.off → ∃ t, exec .l3Arp s = .next t ∧ DoneFrom { s with
      arp := ⟨s.fb.field s.off 2, s.fb.field (s.off + 5) 1, s.fb.field (s.off + 6) 2, s.fb.field (s.off + 8) 6, spa,
        s.fb.field (s.off + 18) 6, tpa⟩
      l3Status := .arp, sum := ⟨.v4, spa.setWidth 128, tpa.setWidth 128⟩ } t) ∧
    (s.frameLength - s.off < 28 → ∃ t, exec .l3Arp s = .next t ∧ DoneFrom { s with l3Status := .malformed } t)

/-- `L3.OTHER` (R124), selected in `L3` by every other key: `L3_STATUS = UNSUPPORTED` and the `DONE` entry action, nothing else,
whatever the payload. -/
def Obligations.UnlistedEtherTypeResult : Prop :=
  ∀ (s : State) (k : BitVec 16),
    (s.ps = .l3 → s.eth.etherType = k → k ≠ 0x0800 → k ≠ 0x86DD → k ≠ 0x0806 → s.inputs = [] →
      step s = exec (.l3Other k) s) ∧
    ∃ t, exec (.l3Other k) s = .next t ∧ DoneFrom { s with l3Status := .unsupported } t

/-- `L4.TCP` (R111), selected in `L4` by the key 6: with 20 bytes at `OFF` the ports and `L4_STATUS = TCP`, otherwise
`MALFORMED`; the `DONE` entry action either way, nothing else. -/
def Obligations.TcpOperationResult : Prop :=
  ∀ s : State,
    (s.ps = .l4 → s.l4key = 6 → s.inputs = [] → step s = exec .l4Tcp s) ∧
    (20 ≤ s.frameLength - s.off → ∃ t, exec .l4Tcp s = .next t ∧ DoneFrom { s with
      ports := ⟨s.fb.field s.off 2, s.fb.field (s.off + 2) 2⟩, l4Status := .tcp } t) ∧
    (s.frameLength - s.off < 20 → ∃ t, exec .l4Tcp s = .next t ∧ DoneFrom { s with l4Status := .malformed } t)

/-- `L4.UDP` (R112), selected in `L4` by the key 17: with 8 bytes at `OFF` the ports and `L4_STATUS = UDP`, otherwise
`MALFORMED`; the `DONE` entry action either way, nothing else. -/
def Obligations.UdpOperationResult : Prop :=
  ∀ s : State,
    (s.ps = .l4 → s.l4key = 17 → s.inputs = [] → step s = exec .l4Udp s) ∧
    (8 ≤ s.frameLength - s.off → ∃ t, exec .l4Udp s = .next t ∧ DoneFrom { s with
      ports := ⟨s.fb.field s.off 2, s.fb.field (s.off + 2) 2⟩, l4Status := .udp } t) ∧
    (s.frameLength - s.off < 8 → ∃ t, exec .l4Udp s = .next t ∧ DoneFrom { s with l4Status := .malformed } t)

/-- `L4.OTHER` (R113), selected in `L4` by every other key: `L4_STATUS = UNSUPPORTED` and the `DONE` entry action, nothing else,
even on an empty payload. -/
def Obligations.UnlistedProtocolResult : Prop :=
  ∀ (s : State) (k : BitVec 8),
    (s.ps = .l4 → s.l4key = k → k ≠ 6 → k ≠ 17 → s.inputs = [] → step s = exec (.l4Other k) s) ∧
    ∃ t, exec (.l4Other k) s = .next t ∧ DoneFrom { s with l4Status := .unsupported } t

/-- R115: the layer-4 resolver changes only `L4_STATUS`, the ports, `PS` and, by the `DONE` entry action, `REPORT_Q`; the
summary and every layer-2 and layer-3 register stay. -/
def Obligations.ResolverLeavesUpperLayers : Prop :=
  ∀ (i : Instr) (s t : State), (i = .l4Tcp ∨ i = .l4Udp ∨ ∃ k, i = .l4Other k) → exec i s = .next t →
    t = { s with l4Status := t.l4Status, ports := t.ports, ps := t.ps, reportQ := t.reportQ }

/-- R186: raising an event writes the event's status code, leaves the summary, every field register and `OFF`, and performs the
`DONE` entry action. -/
def Obligations.RaisingAnEventEndsTheDecode : Prop :=
  ∀ s : State,
    DoneFrom { s with l2Status := .rejected } (raiseEvent .rejected s) ∧
    DoneFrom { s with l3Status := .unsupported } (raiseEvent .unsupportedL3 s) ∧
    DoneFrom { s with l3Status := .malformed } (raiseEvent .malformedL3 s) ∧
    DoneFrom { s with l4Status := .unsupported } (raiseEvent .unsupportedL4 s) ∧
    DoneFrom { s with l4Status := .malformed } (raiseEvent .malformedL4 s)

/-- R147, R171: a parser operation that ends the decode appends exactly one record, of the state it leaves, in `PROCESS` mode
and none in `SUMMARIZE` mode, and `DONE_OUT` becomes 1; one that does not end it appends nothing. -/
def Obligations.OneReportPerEndedDecode : Prop :=
  ∀ (k : Key) (s t : State), s.parserKey = some k → exec (decode k) s = .next t →
    (t.ps = .done → t.doneOut = true ∧ t.reportQ = match s.mode with
      | .process => s.reportQ ++ [t.report]
      | .summarize => s.reportQ) ∧
    (t.ps ≠ .done → t.reportQ = s.reportQ)

/-- R170, the spec's own decision D17: the record holds the label, the statuses, the summary and exactly the groups its statuses
make present. -/
def Obligations.ReportHoldsWhatTheStatusesMakePresent : Prop :=
  ∀ s : State,
    s.report.label = s.label ∧ s.report.l2Status = s.l2Status ∧ s.report.l3Status = s.l3Status ∧
    s.report.l4Status = s.l4Status ∧
    (s.report.eth = if s.l2Status = .ok then some s.eth else none) ∧
    (s.report.ip4 = if s.l3Status = .ipv4 then some s.ip4 else none) ∧
    (s.report.ip6 = if s.l3Status = .ipv6 then some s.ip6 else none) ∧
    (s.report.arp = if s.l3Status = .arp then some s.arp else none) ∧
    (s.report.l4key = if s.l3Status = .ipv4 ∨ s.l3Status = .ipv6 then some s.l4key else none) ∧
    (s.report.ports = if s.l4Status = .tcp ∨ s.l4Status = .udp then some s.ports else none) ∧
    (s.sum.kind = .na → s.report.summary = .na) ∧
    (s.sum.kind = .v4 → s.report.summary = .v4 (s.sum.src.setWidth 32) (s.sum.dst.setWidth 32)) ∧
    (s.sum.kind = .v6 → s.report.summary = .v6 s.sum.src s.sum.dst)

/-! ### Control transfer and progress -/

/-- R127: where control goes, row by row, with R143's key after layer 2 and the conditions under which a view is valid (R92,
R93). The layer-3 rows are for the header at its place, `OFF = 14`. That the waiting parser's turn leaves the state as it is, is
the model's choice (R146, log 20). -/
def Obligations.NextStateTable : Prop :=
  ∀ s : State, s.inputs = [] →
    let ihl : BitVec 4 := (s.fb.field 14 1).extractLsb' 0 4
    let valid4 := 20 ≤ s.frameLength - 14 ∧ 5 ≤ ihl.toNat ∧ 4 * ihl.toNat ≤ s.frameLength - 14
    let valid6 := 40 ≤ s.frameLength - 14
    (s.ps = .l2 → s.frameLength < 14 → ∃ t, step s = .next t ∧ t.ps = .done ∧ t.off = 0) ∧
    (s.ps = .l2 → 14 ≤ s.frameLength → ∃ t, step s = .next t ∧ t.ps = .l3 ∧ t.off = 14 ∧
      t.parserKey = some (.layer3 (s.fb.field 12 2))) ∧
    (s.ps = .l3 → s.off = 14 → s.eth.etherType = 0x0800 → ∃ t, step s = .next t ∧
      (valid4 → t.ps = .l4 ∧ t.ip4.ihl = ihl ∧ t.off = 14 + 4 * ihl.toNat ∧ t.ip4.proto = s.fb.field 23 1 ∧
        t.parserKey = some (.layer4 t.ip4.proto)) ∧
      (¬ valid4 → t.ps = .done ∧ t.off = 14)) ∧
    (s.ps = .l3 → s.off = 14 → s.eth.etherType = 0x86DD → ∃ t, step s = .next t ∧
      (valid6 → t.ps = .l4 ∧ t.off = 54 ∧ t.ip6.nh = s.fb.field 20 1 ∧ t.parserKey = some (.layer4 t.ip6.nh)) ∧
      (¬ valid6 → t.ps = .done ∧ t.off = 14)) ∧
    (s.ps = .l3 → s.off = 14 → s.eth.etherType ≠ 0x0800 → s.eth.etherType ≠ 0x86DD →
      ∃ t, step s = .next t ∧ t.ps = .done ∧ t.off = 14) ∧
    (s.ps = .l4 → ∃ t, step s = .next t ∧ t.ps = .done ∧ t.off = s.off) ∧
    (∀ mode label above, (s.ps = .idle ∨ s.ps = .done) →
      ∃ t, exec (decode (.command mode label above)) s = .next t ∧ t.ps = .l2 ∧ t.off = 0) ∧
    (∀ mode label above, (s.ps = .l2 ∨ s.ps = .l3 ∨ s.ps = .l4) → exec (decode (.command mode label above)) s = .next s) ∧
    ((s.ps = .idle ∨ s.ps = .done) → step s = .next s)

/-- R128, R221: a busy parser needs nothing from any other agent; its step moves strictly forward in the chain `L2, L3, L4,
DONE`, so no state is entered twice for one frame. -/
def Obligations.BusyParserMovesForward : Prop :=
  ∀ s : State, s.ps.busy = true → s.inputs = [] →
    ∃ t, step s = .next t ∧ s.ps.rank < t.ps.rank ∧ t.ps ≠ .idle ∧ t.inputs = []

/-- R150: from an accepted command the parser reaches `DONE` after exactly one step on a rejected frame, after exactly two on an
ARP, unsupported or malformed layer-3 outcome, and after three otherwise. -/
def Obligations.DecodeEndsWithinThreeSteps : Prop :=
  ∀ s : State, s.ps = .l2 → s.inputs = [] →
    ∃ t, step s = .next t ∧
      (s.frameLength < 14 → t.ps = .done ∧ t.l2Status = .rejected) ∧
      (14 ≤ s.frameLength → t.ps = .l3 ∧
        ∃ u, step t = .next u ∧
          ((u.l3Status = .arp ∨ u.l3Status = .unsupported ∨ u.l3Status = .malformed) ∧ u.ps = .done ∨
           (u.l3Status = .ipv4 ∨ u.l3Status = .ipv6) ∧ u.ps = .l4 ∧ ∃ v, step u = .next v ∧ v.ps = .done))

/-! ### The whole decode -/

/-- R148: an accepted command, run to `DONE`, leaves the Result of the pure function `Decode(FB, FLEN)`; the frame is unchanged;
in `PROCESS` mode one record of that Result and the label was appended, in `SUMMARIZE` mode none (R141, R142, R151). Where the
host has not written `FLEN` or a byte since reset, length and byte are free values, so the statement is the 'any value' of U2
(log 3, 4, 10). -/
def Obligations.RunComputesDecode : Prop :=
  ∀ (s : State) (mode : BitVec 1) (label : Label) (above : Nat), (s.ps = .idle ∨ s.ps = .done) →
    ∃ t : State, run 4 { s with inputs := [.host (.writeCmd mode label above)] } = .next t ∧
      t.ps = .done ∧ t.inputs = [] ∧ t.result = decodeFrame s.fb s.frameLength ∧ t.fb = s.fb ∧ t.frameLength = s.frameLength ∧
      t.label = label ∧
      t.reportQ = (if mode = 1 then s.reportQ ++ [Report.ofResult label (decodeFrame s.fb s.frameLength)] else s.reportQ)

/-- R31, R154: two accepted commands on the same frame, in either mode, with any labels, on instances that differ in anything
else, bytes beyond `FLEN` and everything decoded before included, give the same Result. -/
def Obligations.ResultDependsOnTheFrameAlone : Prop :=
  ∀ (s₁ s₂ : State) (m₁ m₂ : BitVec 1) (l₁ l₂ : Label) (a₁ a₂ : Nat),
    (s₁.ps = .idle ∨ s₁.ps = .done) → (s₂.ps = .idle ∨ s₂.ps = .done) →
    s₁.frameLength = s₂.frameLength → (∀ a, a < s₁.frameLength → s₁.fb.read a = s₂.fb.read a) →
    ∃ t₁ t₂ : State, run 4 { s₁ with inputs := [.host (.writeCmd m₁ l₁ a₁)] } = .next t₁ ∧
      run 4 { s₂ with inputs := [.host (.writeCmd m₂ l₂ a₂)] } = .next t₂ ∧
      t₁.ps = .done ∧ t₂.ps = .done ∧ t₁.result = t₂.result

/-- R46: the Result depends on no byte above offset 77, and a frame longer than 94 bytes has the Result of each of its prefixes
of at least 94 bytes. -/
def Obligations.LongFramesDecodeAsTheirPrefix : Prop :=
  ∀ (s₁ s₂ : State) (m₁ m₂ : BitVec 1) (l₁ l₂ : Label) (a₁ a₂ : Nat),
    (s₁.ps = .idle ∨ s₁.ps = .done) → (s₂.ps = .idle ∨ s₂.ps = .done) →
    (s₁.frameLength = s₂.frameLength ∨ 94 ≤ s₁.frameLength ∧ 94 ≤ s₂.frameLength) → (∀ a, a ≤ 77 → s₁.fb.read a = s₂.fb.read a) →
    ∃ t₁ t₂ : State, run 4 { s₁ with inputs := [.host (.writeCmd m₁ l₁ a₁)] } = .next t₁ ∧
      run 4 { s₂ with inputs := [.host (.writeCmd m₂ l₂ a₂)] } = .next t₂ ∧
      t₁.ps = .done ∧ t₂.ps = .done ∧ t₁.result = t₂.result

/-- R140, R213: the host's launch of a frame that fits `FB` (its bytes, its length, the command) is taken whole, and the parser
then reaches the Result of that frame; a `PROCESS` launch leaves one record of it. -/
def Obligations.LaunchedFrameIsDecoded : Prop :=
  ∀ (s : State) (mode : Mode) (label : Label) (frame : List Byte), (s.ps = .idle ∨ s.ps = .done) →
    frame.length ≤ Config.fbMax →
    ∃ t : State, run (frame.length + 5) { s with inputs := launch mode label frame } = .next t ∧
      t.ps = .done ∧ t.result = decodeFrame (s.fb.load 0 frame) frame.length ∧
      t.reportQ = match mode with
        | .process => s.reportQ ++ [Report.ofResult label (decodeFrame (s.fb.load 0 frame) frame.length)]
        | .summarize => s.reportQ

/-- R161: the summary for every outcome, over every frame. -/
def Obligations.SummaryOfEveryOutcome : Prop :=
  ∀ (fb : Memory) (flen : Nat),
    let r := decodeFrame fb flen
    (r.l2 = .rejected → r.sum = ⟨.na, 0, 0⟩) ∧
    (r.l3 = .unsupported → r.sum = ⟨.na, 0, 0⟩) ∧
    (r.l3 = .malformed → r.sum = ⟨.na, 0, 0⟩) ∧
    (r.l3 = .ipv4 → ∃ h, r.ip4 = some h ∧ r.sum = ⟨.v4, h.src.setWidth 128, h.dst.setWidth 128⟩) ∧
    (r.l3 = .ipv6 → ∃ h, r.ip6 = some h ∧ r.sum = ⟨.v6, h.src, h.dst⟩) ∧
    (r.l3 = .arp → ∃ h, r.arp = some h ∧ r.sum = ⟨.v4, h.spa.setWidth 128, h.tpa.setWidth 128⟩) ∧
    (r.l2 = .rejected ∨ r.l3 = .unsupported ∨ r.l3 = .malformed ∨ r.l3 = .ipv4 ∨ r.l3 = .ipv6 ∨ r.l3 = .arp)

/-- PT's scenario for all field values (R121, R111 and the formats R61, R62, R65): a frame of an Ethernet, an IPv4 and a TCP
header, with any options and any payload, decodes to the fields written into it. -/
def Obligations.EthernetIpv4TcpFrameDecodes : Prop :=
  ∀ (m : Memory) (e : EthLine) (l : Ipv4Line) (p : TcpLine) (payload : List Byte),
    e.etherType = 0x0800 → l.wellFormed = true → 5 ≤ l.ihl.toNat → l.proto = 6 →
    let bytes := e.bytes ++ l.bytes ++ p.bytes ++ payload
    decodeFrame (m.load 0 bytes) bytes.length =
      { l2 := .ok, l3 := .ipv4, l4 := .tcp, off := 14 + 4 * l.ihl.toNat
        sum := ⟨.v4, l.src.setWidth 128, l.dst.setWidth 128⟩
        eth := some ⟨e.dst, e.src, 0x0800⟩, ip4 := some ⟨l.ihl, l.len, 6, l.src, l.dst⟩, ip6 := none, arp := none
        l4key := some 6, ports := some ⟨p.sport, p.dport⟩ }

/-! ### Invariants -/

/-- R33 with what makes it inductive: every step that answers a next state keeps the invariant, whatever the host, the sink and
the reset line do. -/
def Obligations.EveryStepKeepsTheInvariant : Prop :=
  ∀ s t : State, s.Inv → step s = .next t → t.Inv

/-- The invariant holds right after reset. -/
def Obligations.ResetMeetsTheInvariant : Prop := State.reset.Inv

/-- R28: in every state that meets the invariant each register's content fits the width its row gives, each status register,
`PS` and `SUM_KIND` holds one of its legal values, `OFF` is one of its legal values, and a valid `IP4_IHL` is from 5 to 15. -/
def Obligations.RegistersFitTheirWidths : Prop :=
  ∀ s : State, s.Inv →
    (∀ r : Reg, r ≠ .label → ∃ n w, s.regContent r = .num n ∧ r.width = some w ∧ n < 2 ^ w) ∧
    s.ps.code ≤ 4 ∧ s.l2Status.code ≤ 2 ∧ s.l3Status.code ≤ 5 ∧ s.l4Status.code ≤ 4 ∧ s.sum.kind.code ≤ 2 ∧
    s.flen ≤ Config.fbMax ∧ s.frameLength ≤ Config.fbMax ∧
    (s.off = 0 ∨ s.off = 14 ∨ s.off = 54 ∨ ∃ k, 5 ≤ k ∧ k ≤ 15 ∧ s.off = 14 + 4 * k) ∧
    (s.regValid .ip4Ihl = true → 5 ≤ s.ip4.ihl.toNat ∧ s.ip4.ihl.toNat ≤ 15)

/-! ### Host, sink and reset -/

/-- R28 (the spec's own decision D5): number and width of every register, row by row. `LABEL` is of the open type, which has no
width (D6); `CMD`, number 0, stores nothing. -/
def Obligations.RegisterFileLayout : Prop :=
  [Reg.flen, .ps, .off, .l4key, .mode, .label, .l2Status, .l3Status, .l4Status, .sumKind, .sumSrc, .sumDst, .ethDst, .ethSrc,
    .etherType, .ip4Ihl, .ip4Totlen, .ip4Proto, .ip4Src, .ip4Dst, .ip6Plen, .ip6Nh, .ip6Src, .ip6Dst, .arpHtype, .arpPalen,
    .arpOper, .arpSha, .arpSpa, .arpTha, .arpTpa, .l4Sport, .l4Dport].map (fun r => (r.number, r.width)) =
  [(1, some (Nat.log2 Config.fbMax + 1)), (2, some 3), (3, some 7), (4, some 8), (5, some 1), (6, none), (7, some 2), (8, some 3),
    (9, some 3), (10, some 2), (11, some 128), (12, some 128), (13, some 48), (14, some 48), (15, some 16), (16, some 4),
    (17, some 16), (18, some 8), (19, some 32), (20, some 32), (21, some 16), (22, some 8), (23, some 128), (24, some 128),
    (25, some 16), (26, some 8), (27, some 16), (28, some 48), (29, some 32), (30, some 48), (31, some 32), (32, some 16),
    (33, some 16)]

/-- R28 with the codes of R13, R16 to R19 and R25 (the spec's own decisions D3 to D6, D16): what a host sees in each register.
-/
def Obligations.RegistersShowTheirFields : Prop :=
  ∀ s : State,
    s.regContent .flen = .num s.flen ∧
    s.regContent .ps = .num (match s.ps with | .idle => 0 | .l2 => 1 | .l3 => 2 | .l4 => 3 | .done => 4) ∧
    s.regContent .off = .num s.off ∧ s.regContent .l4key = .num s.l4key.toNat ∧
    s.regContent .mode = .num (match s.mode with | .summarize => 0 | .process => 1) ∧
    s.regContent .label = .label s.label ∧
    s.regContent .l2Status = .num (match s.l2Status with | .none => 0 | .ok => 1 | .rejected => 2) ∧
    s.regContent .l3Status = .num (match s.l3Status with
      | .none => 0 | .ipv4 => 1 | .ipv6 => 2 | .arp => 3 | .unsupported => 4 | .malformed => 5) ∧
    s.regContent .l4Status = .num (match s.l4Status with
      | .none => 0 | .tcp => 1 | .udp => 2 | .unsupported => 3 | .malformed => 4) ∧
    s.regContent .sumKind = .num (match s.sum.kind with | .na => 0 | .v4 => 1 | .v6 => 2) ∧
    s.regContent .sumSrc = .num s.sum.src.toNat ∧ s.regContent .sumDst = .num s.sum.dst.toNat ∧
    s.regContent .ethDst = .num s.eth.dst.toNat ∧ s.regContent .ethSrc = .num s.eth.src.toNat ∧
    s.regContent .etherType = .num s.eth.etherType.toNat ∧
    s.regContent .ip4Ihl = .num s.ip4.ihl.toNat ∧ s.regContent .ip4Totlen = .num s.ip4.totlen.toNat ∧
    s.regContent .ip4Proto = .num s.ip4.proto.toNat ∧ s.regContent .ip4Src = .num s.ip4.src.toNat ∧
    s.regContent .ip4Dst = .num s.ip4.dst.toNat ∧
    s.regContent .ip6Plen = .num s.ip6.plen.toNat ∧ s.regContent .ip6Nh = .num s.ip6.nh.toNat ∧
    s.regContent .ip6Src = .num s.ip6.src.toNat ∧ s.regContent .ip6Dst = .num s.ip6.dst.toNat ∧
    s.regContent .arpHtype = .num s.arp.htype.toNat ∧ s.regContent .arpPalen = .num s.arp.palen.toNat ∧
    s.regContent .arpOper = .num s.arp.oper.toNat ∧ s.regContent .arpSha = .num s.arp.sha.toNat ∧
    s.regContent .arpSpa = .num s.arp.spa.toNat ∧ s.regContent .arpTha = .num s.arp.tha.toNat ∧
    s.regContent .arpTpa = .num s.arp.tpa.toNat ∧
    s.regContent .l4Sport = .num s.ports.sport.toNat ∧ s.regContent .l4Dport = .num s.ports.dport.toNat

/-- R152, R153: a host read of a valid register delivers its content (`RegistersShowTheirFields` says which) and changes nothing
of the instance. Where the value goes is the model's own field (log 30). -/
def Obligations.ValidRegisterReads : Prop :=
  ∀ (s : State) (r : Reg) (rest : List Input), s.regValid r = true →
    step { s with inputs := .host (.readReg r) :: rest } =
      .next { s with inputs := rest, hostData := .value (s.regContent r) }

/-- R29, R211: a register is readable exactly under the condition of its row, `FLEN` once the host has written it since reset,
`PS` and `MODE` always; a read of an invalid register gives no value and is a fault of the reading program, which FHP survives
unchanged (R217, U9, log 13). A read of `CMD` stops, the model's choice (log 15). -/
def Obligations.InvalidRegisterReadsGiveNoValue : Prop :=
  ∀ (s : State) (rest : List Input),
    (∀ r, r ∈ [Reg.ethDst, .ethSrc, .etherType] → (s.regValid r = true ↔ s.l2Status = .ok)) ∧
    (∀ r, r ∈ [Reg.ip4Ihl, .ip4Totlen, .ip4Proto, .ip4Src, .ip4Dst] → (s.regValid r = true ↔ s.l3Status = .ipv4)) ∧
    (∀ r, r ∈ [Reg.ip6Plen, .ip6Nh, .ip6Src, .ip6Dst] → (s.regValid r = true ↔ s.l3Status = .ipv6)) ∧
    (∀ r, r ∈ [Reg.arpHtype, .arpPalen, .arpOper, .arpSha, .arpSpa, .arpTha, .arpTpa] →
      (s.regValid r = true ↔ s.l3Status = .arp)) ∧
    (s.regValid .l4key = true ↔ (s.l3Status = .ipv4 ∨ s.l3Status = .ipv6)) ∧
    (∀ r, r ∈ [Reg.l4Sport, .l4Dport] → (s.regValid r = true ↔ (s.l4Status = .tcp ∨ s.l4Status = .udp))) ∧
    (∀ r, r ∈ [Reg.sumKind, .sumSrc, .sumDst, .l2Status, .l3Status, .l4Status, .off] →
      (s.regValid r = true ↔ s.ps = .done)) ∧
    (s.regValid .label = true ↔ s.ps ≠ .idle) ∧
    (s.regValid .flen = true ↔ s.flenWritten = true) ∧
    s.regValid .ps = true ∧ s.regValid .mode = true ∧
    (∀ r, s.regValid r = false →
      step { s with inputs := .host (.readReg r) :: rest } = .next { s with inputs := rest, hostData := .programFault }) ∧
    step { s with inputs := .host .readCmd :: rest } = .fault .writeOnlyRegisterRead

/-- R34, R211, R213, U2, U13: what the parser takes for the frame. Its length is `FLEN` once the host has written it since
reset, else an unspecified length that fits `FB`; its bytes are the ones the host has written since reset, else unspecified
ones, which no write elsewhere changes. -/
def Obligations.FrameIsWhatTheHostHasWritten : Prop :=
  ∀ (s : State) (v : Nat) (rest : List Input),
    (s.flenWritten = true → s.frameLength = s.flen) ∧
    (s.flenWritten = false → s.frameLength ≤ Config.fbMax) ∧
    (s.ps.busy = false → v ≤ Config.fbMax → ∃ t, step { s with inputs := .host (.writeReg .flen v) :: rest } = .next t ∧
      t.frameLength = v ∧ t.flenWritten = true) ∧
    (∀ a b, s.fb.written a = some b → s.fb.read a = b) ∧
    (∀ a b, (s.fb.write a b).written a = some b ∧ ∀ x, x ≠ a → (s.fb.write a b).read x = s.fb.read x)

/-- R28, the spec's own decision D5: a host write to a register other than `CMD` and `FLEN` is ignored; `FLEN` takes every
length up to `FB_MAX` when no decode runs (R12), and nothing else changes. The two refusals are the model's choice (log 11, 12;
U1, U10). -/
def Obligations.HostRegisterWrites : Prop :=
  ∀ (s : State) (v : Nat) (rest : List Input),
    (∀ r, r ≠ .flen → step { s with inputs := .host (.writeReg r v) :: rest } = .next { s with inputs := rest }) ∧
    (s.ps.busy = false → v ≤ Config.fbMax →
      step { s with inputs := .host (.writeReg .flen v) :: rest } = .next { s with inputs := rest, flen := v, flenWritten := true }) ∧
    (s.ps.busy = false → Config.fbMax < v →
      step { s with inputs := .host (.writeReg .flen v) :: rest } = .refused .lengthBeyondCapacity) ∧
    (s.ps.busy = true → step { s with inputs := .host (.writeReg .flen v) :: rest } = .refused .frameWriteWhileBusy)

/-- R11, R40, R53, R214: a host write of one byte of `FB` is kept and changes no other byte and nothing else, when no decode
runs or the offset is not below the frame's length; below it while a decode runs it is refused, and outside `FB` it stops, both
the model's choice (log 11, 14). -/
def Obligations.HostFrameWrites : Prop :=
  ∀ (s : State) (a : Nat) (b : Byte) (rest : List Input), s.fb.wf →
    (a < Config.fbMax → (s.ps.busy = false ∨ s.frameLength ≤ a) →
      ∃ t, step { s with inputs := .host (.writeFb a b) :: rest } = .next t ∧
        t = { s with inputs := rest, fb := t.fb } ∧ t.fb.wf ∧
        (∀ x, t.fb.written x = if x = a then some b else s.fb.written x) ∧
        ∀ x, t.fb.read x = if x = a then b else s.fb.read x) ∧
    (a < Config.fbMax → s.ps.busy = true → a < s.frameLength →
      step { s with inputs := .host (.writeFb a b) :: rest } = .refused .frameWriteWhileBusy) ∧
    (Config.fbMax ≤ a → step { s with inputs := .host (.writeFb a b) :: rest } = .fault .noSuchFrameByte)

/-- R10, R40, R47, R211: a host read of one byte of `FB`, in any parser state, delivers the byte the host has written there
since reset; where it has written none it gives no value and the reading program is at fault (log 13); either way nothing of the
instance changes. Outside `FB` it stops, the model's choice (log 14). -/
def Obligations.HostFrameReads : Prop :=
  ∀ (s : State) (a : Nat) (rest : List Input),
    (∀ b, a < Config.fbMax → s.fb.written a = some b → step { s with inputs := .host (.readFb a) :: rest } =
      .next { s with inputs := rest, hostData := .value (.num b.toNat) }) ∧
    (a < Config.fbMax → s.fb.written a = none → step { s with inputs := .host (.readFb a) :: rest } =
      .next { s with inputs := rest, hostData := .programFault }) ∧
    (Config.fbMax ≤ a → step { s with inputs := .host (.readFb a) :: rest } = .fault .noSuchFrameByte)

/-- R26, R172: a step of the sink removes the oldest record of `REPORT_Q` and nothing else; from an empty queue it removes
nothing. That the oldest goes first is the model's reading (log 16). -/
def Obligations.SinkTakesTheOldestRecord : Prop :=
  ∀ (s : State) (rest : List Input),
    (∀ r q, s.reportQ = r :: q →
      step { s with inputs := .sink :: rest } = .next { s with inputs := rest, reportQ := q }) ∧
    (s.reportQ = [] → step { s with inputs := .sink :: rest } = .next { s with inputs := rest })

/-- R210, R34, the spec's own decision D20: reset, asserted in any state, puts `PS`, `OFF`, `MODE`, the statuses, the summary
and `REPORT_Q` at the values the spec states; `DONE_OUT` is 0, no decode and no record of it is left (R212), and what R34 leaves
unspecified is invalid until written: `FLEN`, every byte of `FB`, and every register but `PS` and `MODE` (R211). -/
def Obligations.ResetLeavesTheStatedValues : Prop :=
  ∀ (s : State) (rest : List Input), ∃ t, step { s with inputs := .reset :: rest } = .next t ∧ t.inputs = rest ∧
    t.ps = .idle ∧ t.off = 0 ∧ t.mode = .summarize ∧ t.l2Status = .none ∧ t.l3Status = .none ∧ t.l4Status = .none ∧
    t.sum = ⟨.na, 0, 0⟩ ∧ t.reportQ = [] ∧ t.doneOut = false ∧
    (∀ r : Reg, t.regValid r = true → r = .ps ∨ r = .mode) ∧ ∀ a, t.fb.written a = none

/-- R27: `DONE_OUT = 1` exactly when `PS = DONE`, and R190: it is cleared by an accepted command. -/
def Obligations.DoneOutFollowsParserState : Prop :=
  (∀ s : State, s.doneOut = true ↔ s.ps = .done) ∧
  (∀ (s t : State) (mode : BitVec 1) (label : Label) (above : Nat),
    exec (decode (.command mode label above)) s = .next t → t.doneOut = false)

/-- R10, R11, R12, R214: a step stops exactly when the next input breaks one of the host's duties: a read of `CMD`, an access
outside `FB`, a write of the frame or its length while a decode runs, a length above `FB_MAX`. That these stop is the model's
choice (log 11, 12, 14, 15). -/
def Obligations.StepStopsExactlyOnABrokenDuty : Prop :=
  ∀ s : State, isNext (step s) = false ↔
    (∃ rest, s.inputs = .host .readCmd :: rest) ∨
    (∃ a rest, s.inputs = .host (.readFb a) :: rest ∧ Config.fbMax ≤ a) ∨
    (∃ a b rest, s.inputs = .host (.writeFb a b) :: rest ∧ (Config.fbMax ≤ a ∨ s.ps.busy = true ∧ a < s.frameLength)) ∨
    (∃ n rest, s.inputs = .host (.writeReg .flen n) :: rest ∧ (s.ps.busy = true ∨ Config.fbMax < n))

/-- R192, R221: under a host that keeps its duties (R214; whatever it reads, whenever it commands, however long it waits,
whatever the sink takes and whenever reset comes) no step ever stops, and when the inputs are used up the parser ends every
decode by itself. -/
def Obligations.DutifulHostNeverStopsTheMachine : Prop :=
  ∀ s : State, HostKeepsDuties s →
    (∀ k, isNext (run k s) = true) ∧
    ∃ t : State, run (s.inputs.length + 3) s = .next t ∧ t.inputs = [] ∧ (t.ps = .idle ∨ t.ps = .done)

/-- D6, R16: labels are copied and never inspected. Renaming every label by any function, before a step or after it, is the
same; what stops, stops with the same reason. So no behaviour depends on the label type beyond its names. A reset puts the
model's own label into `LABEL` (log 5), which the function then has to keep. -/
def Obligations.LabelsAreNeverInspected : Prop :=
  ∀ (f : Label → Label) (s : State), (s.inputs.head? ≠ some .reset ∨ f .first = .first) →
    (∀ t, step s = .next t → step (s.relabel f) = .next (t.relabel f)) ∧
    (∀ e, step s = .fault e → step (s.relabel f) = .fault e) ∧
    (∀ e, step s = .refused e → step (s.relabel f) = .refused e)

/-! ### Text -/

/-- R164: the dotted-decimal text of an IPv4 address determines the address. -/
def Obligations.DottedDecimalIsInjective : Prop :=
  ∀ a b : Ipv4Addr, renderV4 a = renderV4 b → a = b

/-- R166: the default `render_v6` is injective, the one thing that is normative about it. -/
def Obligations.ColonHexIsInjective : Prop :=
  Function.Injective renderV6

/-- R163, R165, the spec's own decision D16: the text of a summary is the marker exactly when the summary is the sentinel, and
both addresses then have it. -/
def Obligations.SentinelTextIsNoAddress : Prop :=
  ∀ (p : TextParams), p.legal → ∀ x : Summary,
    ((x.text p).source = p.naText ↔ x = .na) ∧ ((x.text p).destination = p.naText ↔ x = .na)

/-! ### Several instances -/

/-- R197: whatever the interleaving of the instances' steps, each instance reaches the state its own steps alone give it. -/
def Obligations.InstancesRunAsIfAlone : Prop :=
  ∀ (schedule : List Nat) (y z : System), y.run schedule = some z →
    ∀ (i : Nat) (s : State), y.instances[i]? = some s →
      ∃ t : State, z.instances[i]? = some t ∧ run (schedule.count i) s = .next t

/-- R172, R198: on a step of the sink at an instance whose queue is `r :: q` the shared sink gains the whole record `r` at its
end, under that instance's number, and the instance is left with `q`; on every other step, and from an empty queue, the sink
gains nothing. Every other instance and its records in the sink stay. That the oldest record goes first is the model's reading
(log 16). -/
def Obligations.SinkKeepsRecordsApart : Prop :=
  ∀ (y z : System) (i : Nat) (s : State), y.stepOf i = some z → y.instances[i]? = some s →
    (∀ rest r q, s.inputs = .sink :: rest → s.reportQ = r :: q →
      z.sink = y.sink ++ [(i, r)] ∧ z.sinkOf i = y.sinkOf i ++ [r] ∧
      z.instances[i]? = some { s with inputs := rest, reportQ := q }) ∧
    ((s.reportQ = [] ∨ s.inputs.head? ≠ some .sink) → z.sink = y.sink) ∧
    ∀ j, j ≠ i → z.instances[j]? = y.instances[j]? ∧ z.sinkOf j = y.sinkOf j

/-- R172, R198: whatever the interleaving, as long as an instance is not reset, what the sink has of it followed by what its
queue still holds only grows at the end: no record is lost, split, repeated or overtaken. -/
def Obligations.RecordsReachTheSinkInOrder : Prop :=
  ∀ (schedule : List Nat) (y z : System), y.run schedule = some z →
    ∀ (i : Nat) (s : State), y.instances[i]? = some s → .reset ∉ s.inputs →
      ∃ (t : State) (fresh : List Report), z.instances[i]? = some t ∧
        z.sinkOf i ++ t.reportQ = y.sinkOf i ++ s.reportQ ++ fresh
end

