-- ==== Sys2Proof/Laws/State.lean ====
section
/-! SUPPORT. One lemma per field for each shared update of the state, true by definition, so that no later proof unfolds a
record update. Where an update gives a field a value of its own (a free value, a report), the field has no lemma here. -/

namespace Sys2Proof.Machine

/-! ### enterDone -/

@[simp] theorem enterDone_fb (s : State) :
    (enterDone s).fb = s.fb := rfl

@[simp] theorem enterDone_flen (s : State) :
    (enterDone s).flen = s.flen := rfl

@[simp] theorem enterDone_ps (s : State) :
    (enterDone s).ps = .done := rfl

@[simp] theorem enterDone_off (s : State) :
    (enterDone s).off = s.off := rfl

@[simp] theorem enterDone_l4key (s : State) :
    (enterDone s).l4key = s.l4key := rfl

@[simp] theorem enterDone_mode (s : State) :
    (enterDone s).mode = s.mode := rfl

@[simp] theorem enterDone_label (s : State) :
    (enterDone s).label = s.label := rfl

@[simp] theorem enterDone_l2Status (s : State) :
    (enterDone s).l2Status = s.l2Status := rfl

@[simp] theorem enterDone_l3Status (s : State) :
    (enterDone s).l3Status = s.l3Status := rfl

@[simp] theorem enterDone_l4Status (s : State) :
    (enterDone s).l4Status = s.l4Status := rfl

@[simp] theorem enterDone_eth (s : State) :
    (enterDone s).eth = s.eth := rfl

@[simp] theorem enterDone_ip4 (s : State) :
    (enterDone s).ip4 = s.ip4 := rfl

@[simp] theorem enterDone_ip6 (s : State) :
    (enterDone s).ip6 = s.ip6 := rfl

@[simp] theorem enterDone_arp (s : State) :
    (enterDone s).arp = s.arp := rfl

@[simp] theorem enterDone_ports (s : State) :
    (enterDone s).ports = s.ports := rfl

@[simp] theorem enterDone_sum (s : State) :
    (enterDone s).sum = s.sum := rfl

@[simp] theorem enterDone_reportQ (s : State) :
    (enterDone s).reportQ = (match s.mode with | .process => s.reportQ ++ [s.report] | .summarize => s.reportQ) := rfl

@[simp] theorem enterDone_inputs (s : State) :
    (enterDone s).inputs = s.inputs := rfl

@[simp] theorem enterDone_hostData (s : State) :
    (enterDone s).hostData = s.hostData := rfl

@[simp] theorem enterDone_freeCount (s : State) :
    (enterDone s).freeCount = s.freeCount := rfl

@[simp] theorem enterDone_flenWritten (s : State) :
    (enterDone s).flenWritten = s.flenWritten := rfl

@[simp] theorem enterDone_frameLength (s : State) :
    (enterDone s).frameLength = s.frameLength := rfl

/-! ### startCommand -/

@[simp] theorem startCommand_fb (m : Mode) (l : Label) (s : State) :
    (startCommand m l s).fb = s.fb := rfl

@[simp] theorem startCommand_flen (m : Mode) (l : Label) (s : State) :
    (startCommand m l s).flen = s.flen := rfl

@[simp] theorem startCommand_ps (m : Mode) (l : Label) (s : State) :
    (startCommand m l s).ps = .l2 := rfl

@[simp] theorem startCommand_off (m : Mode) (l : Label) (s : State) :
    (startCommand m l s).off = 0 := rfl

@[simp] theorem startCommand_mode (m : Mode) (l : Label) (s : State) :
    (startCommand m l s).mode = m := rfl

@[simp] theorem startCommand_label (m : Mode) (l : Label) (s : State) :
    (startCommand m l s).label = l := rfl

@[simp] theorem startCommand_l2Status (m : Mode) (l : Label) (s : State) :
    (startCommand m l s).l2Status = .none := rfl

@[simp] theorem startCommand_l3Status (m : Mode) (l : Label) (s : State) :
    (startCommand m l s).l3Status = .none := rfl

@[simp] theorem startCommand_l4Status (m : Mode) (l : Label) (s : State) :
    (startCommand m l s).l4Status = .none := rfl

@[simp] theorem startCommand_sum (m : Mode) (l : Label) (s : State) :
    (startCommand m l s).sum = .sentinel := rfl

@[simp] theorem startCommand_reportQ (m : Mode) (l : Label) (s : State) :
    (startCommand m l s).reportQ = s.reportQ := rfl

@[simp] theorem startCommand_inputs (m : Mode) (l : Label) (s : State) :
    (startCommand m l s).inputs = s.inputs := rfl

@[simp] theorem startCommand_hostData (m : Mode) (l : Label) (s : State) :
    (startCommand m l s).hostData = s.hostData := rfl

@[simp] theorem startCommand_freeCount (m : Mode) (l : Label) (s : State) :
    (startCommand m l s).freeCount = (s.freeCount + 1) := rfl

@[simp] theorem startCommand_flenWritten (m : Mode) (l : Label) (s : State) :
    (startCommand m l s).flenWritten = s.flenWritten := rfl

@[simp] theorem startCommand_frameLength (m : Mode) (l : Label) (s : State) :
    (startCommand m l s).frameLength = s.frameLength := rfl

/-! ### raiseEvent -/

@[simp] theorem raiseEvent_fb (e : Event) (s : State) :
    (raiseEvent e s).fb = s.fb := by cases e <;> rfl

@[simp] theorem raiseEvent_flen (e : Event) (s : State) :
    (raiseEvent e s).flen = s.flen := by cases e <;> rfl

@[simp] theorem raiseEvent_ps (e : Event) (s : State) :
    (raiseEvent e s).ps = .done := by cases e <;> rfl

@[simp] theorem raiseEvent_off (e : Event) (s : State) :
    (raiseEvent e s).off = s.off := by cases e <;> rfl

@[simp] theorem raiseEvent_l4key (e : Event) (s : State) :
    (raiseEvent e s).l4key = s.l4key := by cases e <;> rfl

@[simp] theorem raiseEvent_mode (e : Event) (s : State) :
    (raiseEvent e s).mode = s.mode := by cases e <;> rfl

@[simp] theorem raiseEvent_label (e : Event) (s : State) :
    (raiseEvent e s).label = s.label := by cases e <;> rfl

@[simp] theorem raiseEvent_l2Status (e : Event) (s : State) :
    (raiseEvent e s).l2Status = (if e = .rejected then .rejected else s.l2Status) := by cases e <;> rfl

@[simp] theorem raiseEvent_l3Status (e : Event) (s : State) :
    (raiseEvent e s).l3Status = (match e with | .unsupportedL3 => .unsupported | .malformedL3 => .malformed | _ => s.l3Status) := by cases e <;> rfl

@[simp] theorem raiseEvent_l4Status (e : Event) (s : State) :
    (raiseEvent e s).l4Status = (match e with | .unsupportedL4 => .unsupported | .malformedL4 => .malformed | _ => s.l4Status) := by cases e <;> rfl

@[simp] theorem raiseEvent_eth (e : Event) (s : State) :
    (raiseEvent e s).eth = s.eth := by cases e <;> rfl

@[simp] theorem raiseEvent_ip4 (e : Event) (s : State) :
    (raiseEvent e s).ip4 = s.ip4 := by cases e <;> rfl

@[simp] theorem raiseEvent_ip6 (e : Event) (s : State) :
    (raiseEvent e s).ip6 = s.ip6 := by cases e <;> rfl

@[simp] theorem raiseEvent_arp (e : Event) (s : State) :
    (raiseEvent e s).arp = s.arp := by cases e <;> rfl

@[simp] theorem raiseEvent_ports (e : Event) (s : State) :
    (raiseEvent e s).ports = s.ports := by cases e <;> rfl

@[simp] theorem raiseEvent_sum (e : Event) (s : State) :
    (raiseEvent e s).sum = s.sum := by cases e <;> rfl

@[simp] theorem raiseEvent_reportQ (e : Event) (s : State) :
    (raiseEvent e s).reportQ = (match s.mode with | .process => s.reportQ ++ [(e.record s).report] | .summarize => s.reportQ) := by cases e <;> rfl

@[simp] theorem raiseEvent_inputs (e : Event) (s : State) :
    (raiseEvent e s).inputs = s.inputs := by cases e <;> rfl

@[simp] theorem raiseEvent_hostData (e : Event) (s : State) :
    (raiseEvent e s).hostData = s.hostData := by cases e <;> rfl

@[simp] theorem raiseEvent_freeCount (e : Event) (s : State) :
    (raiseEvent e s).freeCount = s.freeCount := by cases e <;> rfl

@[simp] theorem raiseEvent_flenWritten (e : Event) (s : State) :
    (raiseEvent e s).flenWritten = s.flenWritten := by cases e <;> rfl

@[simp] theorem raiseEvent_frameLength (e : Event) (s : State) :
    (raiseEvent e s).frameLength = s.frameLength := by cases e <;> rfl

/-! ### loadEth -/

@[simp] theorem loadEth_fb (h : EthRegs) (p : Nat) (s : State) :
    (loadEth h p s).fb = s.fb := rfl

@[simp] theorem loadEth_flen (h : EthRegs) (p : Nat) (s : State) :
    (loadEth h p s).flen = s.flen := rfl

@[simp] theorem loadEth_ps (h : EthRegs) (p : Nat) (s : State) :
    (loadEth h p s).ps = .l3 := rfl

@[simp] theorem loadEth_off (h : EthRegs) (p : Nat) (s : State) :
    (loadEth h p s).off = p := rfl

@[simp] theorem loadEth_l4key (h : EthRegs) (p : Nat) (s : State) :
    (loadEth h p s).l4key = s.l4key := rfl

@[simp] theorem loadEth_mode (h : EthRegs) (p : Nat) (s : State) :
    (loadEth h p s).mode = s.mode := rfl

@[simp] theorem loadEth_label (h : EthRegs) (p : Nat) (s : State) :
    (loadEth h p s).label = s.label := rfl

@[simp] theorem loadEth_l2Status (h : EthRegs) (p : Nat) (s : State) :
    (loadEth h p s).l2Status = .ok := rfl

@[simp] theorem loadEth_l3Status (h : EthRegs) (p : Nat) (s : State) :
    (loadEth h p s).l3Status = s.l3Status := rfl

@[simp] theorem loadEth_l4Status (h : EthRegs) (p : Nat) (s : State) :
    (loadEth h p s).l4Status = s.l4Status := rfl

@[simp] theorem loadEth_eth (h : EthRegs) (p : Nat) (s : State) :
    (loadEth h p s).eth = h := rfl

@[simp] theorem loadEth_ip4 (h : EthRegs) (p : Nat) (s : State) :
    (loadEth h p s).ip4 = s.ip4 := rfl

@[simp] theorem loadEth_ip6 (h : EthRegs) (p : Nat) (s : State) :
    (loadEth h p s).ip6 = s.ip6 := rfl

@[simp] theorem loadEth_arp (h : EthRegs) (p : Nat) (s : State) :
    (loadEth h p s).arp = s.arp := rfl

@[simp] theorem loadEth_ports (h : EthRegs) (p : Nat) (s : State) :
    (loadEth h p s).ports = s.ports := rfl

@[simp] theorem loadEth_sum (h : EthRegs) (p : Nat) (s : State) :
    (loadEth h p s).sum = s.sum := rfl

@[simp] theorem loadEth_reportQ (h : EthRegs) (p : Nat) (s : State) :
    (loadEth h p s).reportQ = s.reportQ := rfl

@[simp] theorem loadEth_inputs (h : EthRegs) (p : Nat) (s : State) :
    (loadEth h p s).inputs = s.inputs := rfl

@[simp] theorem loadEth_hostData (h : EthRegs) (p : Nat) (s : State) :
    (loadEth h p s).hostData = s.hostData := rfl

@[simp] theorem loadEth_freeCount (h : EthRegs) (p : Nat) (s : State) :
    (loadEth h p s).freeCount = s.freeCount := rfl

@[simp] theorem loadEth_flenWritten (h : EthRegs) (p : Nat) (s : State) :
    (loadEth h p s).flenWritten = s.flenWritten := rfl

@[simp] theorem loadEth_frameLength (h : EthRegs) (p : Nat) (s : State) :
    (loadEth h p s).frameLength = s.frameLength := rfl

/-! ### loadIpv4 -/

@[simp] theorem loadIpv4_fb (h : Ip4Regs) (p : Nat) (s : State) :
    (loadIpv4 h p s).fb = s.fb := rfl

@[simp] theorem loadIpv4_flen (h : Ip4Regs) (p : Nat) (s : State) :
    (loadIpv4 h p s).flen = s.flen := rfl

@[simp] theorem loadIpv4_ps (h : Ip4Regs) (p : Nat) (s : State) :
    (loadIpv4 h p s).ps = .l4 := rfl

@[simp] theorem loadIpv4_off (h : Ip4Regs) (p : Nat) (s : State) :
    (loadIpv4 h p s).off = p := rfl

@[simp] theorem loadIpv4_l4key (h : Ip4Regs) (p : Nat) (s : State) :
    (loadIpv4 h p s).l4key = h.proto := rfl

@[simp] theorem loadIpv4_mode (h : Ip4Regs) (p : Nat) (s : State) :
    (loadIpv4 h p s).mode = s.mode := rfl

@[simp] theorem loadIpv4_label (h : Ip4Regs) (p : Nat) (s : State) :
    (loadIpv4 h p s).label = s.label := rfl

@[simp] theorem loadIpv4_l2Status (h : Ip4Regs) (p : Nat) (s : State) :
    (loadIpv4 h p s).l2Status = s.l2Status := rfl

@[simp] theorem loadIpv4_l3Status (h : Ip4Regs) (p : Nat) (s : State) :
    (loadIpv4 h p s).l3Status = .ipv4 := rfl

@[simp] theorem loadIpv4_l4Status (h : Ip4Regs) (p : Nat) (s : State) :
    (loadIpv4 h p s).l4Status = s.l4Status := rfl

@[simp] theorem loadIpv4_eth (h : Ip4Regs) (p : Nat) (s : State) :
    (loadIpv4 h p s).eth = s.eth := rfl

@[simp] theorem loadIpv4_ip4 (h : Ip4Regs) (p : Nat) (s : State) :
    (loadIpv4 h p s).ip4 = h := rfl

@[simp] theorem loadIpv4_ip6 (h : Ip4Regs) (p : Nat) (s : State) :
    (loadIpv4 h p s).ip6 = s.ip6 := rfl

@[simp] theorem loadIpv4_arp (h : Ip4Regs) (p : Nat) (s : State) :
    (loadIpv4 h p s).arp = s.arp := rfl

@[simp] theorem loadIpv4_ports (h : Ip4Regs) (p : Nat) (s : State) :
    (loadIpv4 h p s).ports = s.ports := rfl

@[simp] theorem loadIpv4_sum (h : Ip4Regs) (p : Nat) (s : State) :
    (loadIpv4 h p s).sum = (.ofV4 h.src h.dst) := rfl

@[simp] theorem loadIpv4_reportQ (h : Ip4Regs) (p : Nat) (s : State) :
    (loadIpv4 h p s).reportQ = s.reportQ := rfl

@[simp] theorem loadIpv4_inputs (h : Ip4Regs) (p : Nat) (s : State) :
    (loadIpv4 h p s).inputs = s.inputs := rfl

@[simp] theorem loadIpv4_hostData (h : Ip4Regs) (p : Nat) (s : State) :
    (loadIpv4 h p s).hostData = s.hostData := rfl

@[simp] theorem loadIpv4_freeCount (h : Ip4Regs) (p : Nat) (s : State) :
    (loadIpv4 h p s).freeCount = s.freeCount := rfl

@[simp] theorem loadIpv4_flenWritten (h : Ip4Regs) (p : Nat) (s : State) :
    (loadIpv4 h p s).flenWritten = s.flenWritten := rfl

@[simp] theorem loadIpv4_frameLength (h : Ip4Regs) (p : Nat) (s : State) :
    (loadIpv4 h p s).frameLength = s.frameLength := rfl

/-! ### loadIpv6 -/

@[simp] theorem loadIpv6_fb (h : Ip6Regs) (p : Nat) (s : State) :
    (loadIpv6 h p s).fb = s.fb := rfl

@[simp] theorem loadIpv6_flen (h : Ip6Regs) (p : Nat) (s : State) :
    (loadIpv6 h p s).flen = s.flen := rfl

@[simp] theorem loadIpv6_ps (h : Ip6Regs) (p : Nat) (s : State) :
    (loadIpv6 h p s).ps = .l4 := rfl

@[simp] theorem loadIpv6_off (h : Ip6Regs) (p : Nat) (s : State) :
    (loadIpv6 h p s).off = p := rfl

@[simp] theorem loadIpv6_l4key (h : Ip6Regs) (p : Nat) (s : State) :
    (loadIpv6 h p s).l4key = h.nh := rfl

@[simp] theorem loadIpv6_mode (h : Ip6Regs) (p : Nat) (s : State) :
    (loadIpv6 h p s).mode = s.mode := rfl

@[simp] theorem loadIpv6_label (h : Ip6Regs) (p : Nat) (s : State) :
    (loadIpv6 h p s).label = s.label := rfl

@[simp] theorem loadIpv6_l2Status (h : Ip6Regs) (p : Nat) (s : State) :
    (loadIpv6 h p s).l2Status = s.l2Status := rfl

@[simp] theorem loadIpv6_l3Status (h : Ip6Regs) (p : Nat) (s : State) :
    (loadIpv6 h p s).l3Status = .ipv6 := rfl

@[simp] theorem loadIpv6_l4Status (h : Ip6Regs) (p : Nat) (s : State) :
    (loadIpv6 h p s).l4Status = s.l4Status := rfl

@[simp] theorem loadIpv6_eth (h : Ip6Regs) (p : Nat) (s : State) :
    (loadIpv6 h p s).eth = s.eth := rfl

@[simp] theorem loadIpv6_ip4 (h : Ip6Regs) (p : Nat) (s : State) :
    (loadIpv6 h p s).ip4 = s.ip4 := rfl

@[simp] theorem loadIpv6_ip6 (h : Ip6Regs) (p : Nat) (s : State) :
    (loadIpv6 h p s).ip6 = h := rfl

@[simp] theorem loadIpv6_arp (h : Ip6Regs) (p : Nat) (s : State) :
    (loadIpv6 h p s).arp = s.arp := rfl

@[simp] theorem loadIpv6_ports (h : Ip6Regs) (p : Nat) (s : State) :
    (loadIpv6 h p s).ports = s.ports := rfl

@[simp] theorem loadIpv6_sum (h : Ip6Regs) (p : Nat) (s : State) :
    (loadIpv6 h p s).sum = (.ofV6 h.src h.dst) := rfl

@[simp] theorem loadIpv6_reportQ (h : Ip6Regs) (p : Nat) (s : State) :
    (loadIpv6 h p s).reportQ = s.reportQ := rfl

@[simp] theorem loadIpv6_inputs (h : Ip6Regs) (p : Nat) (s : State) :
    (loadIpv6 h p s).inputs = s.inputs := rfl

@[simp] theorem loadIpv6_hostData (h : Ip6Regs) (p : Nat) (s : State) :
    (loadIpv6 h p s).hostData = s.hostData := rfl

@[simp] theorem loadIpv6_freeCount (h : Ip6Regs) (p : Nat) (s : State) :
    (loadIpv6 h p s).freeCount = s.freeCount := rfl

@[simp] theorem loadIpv6_flenWritten (h : Ip6Regs) (p : Nat) (s : State) :
    (loadIpv6 h p s).flenWritten = s.flenWritten := rfl

@[simp] theorem loadIpv6_frameLength (h : Ip6Regs) (p : Nat) (s : State) :
    (loadIpv6 h p s).frameLength = s.frameLength := rfl

/-! ### loadArp -/

@[simp] theorem loadArp_fb (h : ArpRegs) (s : State) :
    (loadArp h s).fb = s.fb := rfl

@[simp] theorem loadArp_flen (h : ArpRegs) (s : State) :
    (loadArp h s).flen = s.flen := rfl

@[simp] theorem loadArp_ps (h : ArpRegs) (s : State) :
    (loadArp h s).ps = .done := rfl

@[simp] theorem loadArp_off (h : ArpRegs) (s : State) :
    (loadArp h s).off = s.off := rfl

@[simp] theorem loadArp_l4key (h : ArpRegs) (s : State) :
    (loadArp h s).l4key = s.l4key := rfl

@[simp] theorem loadArp_mode (h : ArpRegs) (s : State) :
    (loadArp h s).mode = s.mode := rfl

@[simp] theorem loadArp_label (h : ArpRegs) (s : State) :
    (loadArp h s).label = s.label := rfl

@[simp] theorem loadArp_l2Status (h : ArpRegs) (s : State) :
    (loadArp h s).l2Status = s.l2Status := rfl

@[simp] theorem loadArp_l3Status (h : ArpRegs) (s : State) :
    (loadArp h s).l3Status = .arp := rfl

@[simp] theorem loadArp_l4Status (h : ArpRegs) (s : State) :
    (loadArp h s).l4Status = s.l4Status := rfl

@[simp] theorem loadArp_eth (h : ArpRegs) (s : State) :
    (loadArp h s).eth = s.eth := rfl

@[simp] theorem loadArp_ip4 (h : ArpRegs) (s : State) :
    (loadArp h s).ip4 = s.ip4 := rfl

@[simp] theorem loadArp_ip6 (h : ArpRegs) (s : State) :
    (loadArp h s).ip6 = s.ip6 := rfl

@[simp] theorem loadArp_arp (h : ArpRegs) (s : State) :
    (loadArp h s).arp = h := rfl

@[simp] theorem loadArp_ports (h : ArpRegs) (s : State) :
    (loadArp h s).ports = s.ports := rfl

@[simp] theorem loadArp_sum (h : ArpRegs) (s : State) :
    (loadArp h s).sum = (.ofV4 h.spa h.tpa) := rfl

@[simp] theorem loadArp_inputs (h : ArpRegs) (s : State) :
    (loadArp h s).inputs = s.inputs := rfl

@[simp] theorem loadArp_hostData (h : ArpRegs) (s : State) :
    (loadArp h s).hostData = s.hostData := rfl

@[simp] theorem loadArp_freeCount (h : ArpRegs) (s : State) :
    (loadArp h s).freeCount = s.freeCount := rfl

@[simp] theorem loadArp_flenWritten (h : ArpRegs) (s : State) :
    (loadArp h s).flenWritten = s.flenWritten := rfl

@[simp] theorem loadArp_frameLength (h : ArpRegs) (s : State) :
    (loadArp h s).frameLength = s.frameLength := rfl

/-! ### loadPorts -/

@[simp] theorem loadPorts_fb (c : L4Status) (h : PortRegs) (s : State) :
    (loadPorts c h s).fb = s.fb := rfl

@[simp] theorem loadPorts_flen (c : L4Status) (h : PortRegs) (s : State) :
    (loadPorts c h s).flen = s.flen := rfl

@[simp] theorem loadPorts_ps (c : L4Status) (h : PortRegs) (s : State) :
    (loadPorts c h s).ps = .done := rfl

@[simp] theorem loadPorts_off (c : L4Status) (h : PortRegs) (s : State) :
    (loadPorts c h s).off = s.off := rfl

@[simp] theorem loadPorts_l4key (c : L4Status) (h : PortRegs) (s : State) :
    (loadPorts c h s).l4key = s.l4key := rfl

@[simp] theorem loadPorts_mode (c : L4Status) (h : PortRegs) (s : State) :
    (loadPorts c h s).mode = s.mode := rfl

@[simp] theorem loadPorts_label (c : L4Status) (h : PortRegs) (s : State) :
    (loadPorts c h s).label = s.label := rfl

@[simp] theorem loadPorts_l2Status (c : L4Status) (h : PortRegs) (s : State) :
    (loadPorts c h s).l2Status = s.l2Status := rfl

@[simp] theorem loadPorts_l3Status (c : L4Status) (h : PortRegs) (s : State) :
    (loadPorts c h s).l3Status = s.l3Status := rfl

@[simp] theorem loadPorts_l4Status (c : L4Status) (h : PortRegs) (s : State) :
    (loadPorts c h s).l4Status = c := rfl

@[simp] theorem loadPorts_eth (c : L4Status) (h : PortRegs) (s : State) :
    (loadPorts c h s).eth = s.eth := rfl

@[simp] theorem loadPorts_ip4 (c : L4Status) (h : PortRegs) (s : State) :
    (loadPorts c h s).ip4 = s.ip4 := rfl

@[simp] theorem loadPorts_ip6 (c : L4Status) (h : PortRegs) (s : State) :
    (loadPorts c h s).ip6 = s.ip6 := rfl

@[simp] theorem loadPorts_arp (c : L4Status) (h : PortRegs) (s : State) :
    (loadPorts c h s).arp = s.arp := rfl

@[simp] theorem loadPorts_ports (c : L4Status) (h : PortRegs) (s : State) :
    (loadPorts c h s).ports = h := rfl

@[simp] theorem loadPorts_sum (c : L4Status) (h : PortRegs) (s : State) :
    (loadPorts c h s).sum = s.sum := rfl

@[simp] theorem loadPorts_inputs (c : L4Status) (h : PortRegs) (s : State) :
    (loadPorts c h s).inputs = s.inputs := rfl

@[simp] theorem loadPorts_hostData (c : L4Status) (h : PortRegs) (s : State) :
    (loadPorts c h s).hostData = s.hostData := rfl

@[simp] theorem loadPorts_freeCount (c : L4Status) (h : PortRegs) (s : State) :
    (loadPorts c h s).freeCount = s.freeCount := rfl

@[simp] theorem loadPorts_flenWritten (c : L4Status) (h : PortRegs) (s : State) :
    (loadPorts c h s).flenWritten = s.flenWritten := rfl

@[simp] theorem loadPorts_frameLength (c : L4Status) (h : PortRegs) (s : State) :
    (loadPorts c h s).frameLength = s.frameLength := rfl

/-! ### sinkTake -/

@[simp] theorem sinkTake_fb (s : State) :
    (sinkTake s).fb = s.fb := rfl

@[simp] theorem sinkTake_flen (s : State) :
    (sinkTake s).flen = s.flen := rfl

@[simp] theorem sinkTake_ps (s : State) :
    (sinkTake s).ps = s.ps := rfl

@[simp] theorem sinkTake_off (s : State) :
    (sinkTake s).off = s.off := rfl

@[simp] theorem sinkTake_l4key (s : State) :
    (sinkTake s).l4key = s.l4key := rfl

@[simp] theorem sinkTake_mode (s : State) :
    (sinkTake s).mode = s.mode := rfl

@[simp] theorem sinkTake_label (s : State) :
    (sinkTake s).label = s.label := rfl

@[simp] theorem sinkTake_l2Status (s : State) :
    (sinkTake s).l2Status = s.l2Status := rfl

@[simp] theorem sinkTake_l3Status (s : State) :
    (sinkTake s).l3Status = s.l3Status := rfl

@[simp] theorem sinkTake_l4Status (s : State) :
    (sinkTake s).l4Status = s.l4Status := rfl

@[simp] theorem sinkTake_eth (s : State) :
    (sinkTake s).eth = s.eth := rfl

@[simp] theorem sinkTake_ip4 (s : State) :
    (sinkTake s).ip4 = s.ip4 := rfl

@[simp] theorem sinkTake_ip6 (s : State) :
    (sinkTake s).ip6 = s.ip6 := rfl

@[simp] theorem sinkTake_arp (s : State) :
    (sinkTake s).arp = s.arp := rfl

@[simp] theorem sinkTake_ports (s : State) :
    (sinkTake s).ports = s.ports := rfl

@[simp] theorem sinkTake_sum (s : State) :
    (sinkTake s).sum = s.sum := rfl

@[simp] theorem sinkTake_reportQ (s : State) :
    (sinkTake s).reportQ = s.reportQ.tail := rfl

@[simp] theorem sinkTake_inputs (s : State) :
    (sinkTake s).inputs = s.inputs := rfl

@[simp] theorem sinkTake_hostData (s : State) :
    (sinkTake s).hostData = s.hostData := rfl

@[simp] theorem sinkTake_freeCount (s : State) :
    (sinkTake s).freeCount = s.freeCount := rfl

@[simp] theorem sinkTake_flenWritten (s : State) :
    (sinkTake s).flenWritten = s.flenWritten := rfl

@[simp] theorem sinkTake_frameLength (s : State) :
    (sinkTake s).frameLength = s.frameLength := rfl

end Sys2Proof.Machine
end

