-- ==== Sys2Proof/Laws/Memory.lean ====
section
/-! SUPPORT. The laws of the frame buffer and of `MemRead`: read after write, the canonical form every operation keeps, and
what a field's value depends on. -/

namespace Sys2Proof.Machine

/-! ### Read and write of one byte -/

/-- An offset below every listed one is not listed. -/
theorem lookupCell_of_forall_lt {cs : List Host.Cell} {a : Nat} (h : ∀ c ∈ cs, a < c.1) : lookupCell cs a = none := by
  induction cs with
  | nil => rfl
  | cons c cs ih =>
    have hc : c.1 ≠ a := Nat.ne_of_gt (h c (List.mem_cons_self ..))
    rw [lookupCell, if_neg hc]
    exact ih fun d hd => h d (List.mem_cons_of_mem _ hd)

/-- What is listed after an insertion, at the inserted offset and at every other one. No order is needed. -/
theorem lookupCell_insertCell (cs : List Host.Cell) (a : Nat) (b : Byte) (x : Nat) :
    lookupCell (insertCell cs a b) x = if x = a then some b else lookupCell cs x := by
  induction cs with
  | nil => simp [insertCell, lookupCell, eq_comm]
  | cons c cs ih =>
    rw [insertCell]
    split
    · simp [lookupCell, eq_comm]
    · split
      · rename_i h
        by_cases hx : x = a
        · simp [lookupCell, hx]
        · simp [lookupCell, hx, ← h, Ne.symm hx]
      · rename_i h
        by_cases hx : x = a
        · subst hx
          simp [lookupCell, ih, Ne.symm h]
        · simp [lookupCell, ih, hx]

@[simp] theorem Memory.write_epoch (m : Memory) (a : Nat) (b : Byte) : (m.write a b).epoch = m.epoch := rfl

@[simp] theorem Memory.unlisted_write (m : Memory) (a : Nat) (b : Byte) (x : Nat) :
    (m.write a b).unlisted x = m.unlisted x := rfl

/-- What the host has written after a write. -/
theorem Memory.written_write (m : Memory) (a : Nat) (b : Byte) (x : Nat) :
    (m.write a b).written x = if x = a then some b else m.written x := lookupCell_insertCell m.cells a b x

/-- What a read gives after a write, at the written offset and at every other one. -/
theorem Memory.read_write (m : Memory) (a : Nat) (b : Byte) (x : Nat) :
    (m.write a b).read x = if x = a then b else m.read x := by
  rw [Memory.read, Memory.written_write, Memory.unlisted_write]
  by_cases hx : x = a <;> simp [hx, Memory.read]

/-- A byte the host has written is what the parser reads. -/
theorem Memory.read_of_written {m : Memory} {a : Nat} {b : Byte} (h : m.written a = some b) : m.read a = b := by
  rw [Memory.read, h]; rfl

/-! ### The canonical form -/

/-- The entries after an insertion: the old ones and the inserted byte. -/
theorem mem_insertCell {cs : List Host.Cell} {a : Nat} {b : Byte} {d : Host.Cell} (h : d ∈ insertCell cs a b) :
    d ∈ cs ∨ d = (a, b) := by
  induction cs with
  | nil => exact .inr (by simpa [insertCell] using h)
  | cons c cs ih =>
    rw [insertCell] at h
    split at h
    · exact (List.mem_cons.mp h).symm
    · split at h
      · exact (List.mem_cons.mp h).symm.imp_left (List.mem_cons_of_mem _)
      · rcases List.mem_cons.mp h with rfl | h
        · exact .inl (List.mem_cons_self ..)
        · exact (ih h).imp_left (List.mem_cons_of_mem _)

theorem Memory.wf_blank : Memory.blank.wf := List.Pairwise.nil

/-- A write keeps the canonical form. -/
theorem Memory.wf_write {m : Memory} (hm : m.wf) (a : Nat) (b : Byte) : (m.write a b).wf := by
  obtain ⟨cs, e⟩ := m
  show List.Pairwise _ (insertCell cs a b)
  replace hm : List.Pairwise (fun c d : Host.Cell => c.1 < d.1) cs := hm
  induction cs with
  | nil => simp [insertCell]
  | cons c cs ih =>
    obtain ⟨hlt, hs⟩ := List.pairwise_cons.mp hm
    rw [insertCell]
    split
    · rename_i h
      refine List.pairwise_cons.mpr ⟨fun d hd => ?_, hm⟩
      rcases List.mem_cons.mp hd with rfl | hd
      · exact h
      · exact Nat.lt_trans h (hlt d hd)
    · split
      · rename_i h
        exact List.pairwise_cons.mpr ⟨fun d hd => h ▸ hlt d hd, hs⟩
      · refine List.pairwise_cons.mpr ⟨fun d hd => ?_, ih hs⟩
        rcases mem_insertCell hd with hd | rfl
        · exact hlt d hd
        · show c.1 < a
          omega

/-- Loading a byte string keeps the canonical form. -/
theorem Memory.wf_load {m : Memory} (hm : m.wf) (a : Nat) (bs : List Byte) : (m.load a bs).wf := by
  induction bs generalizing m a with
  | nil => exact hm
  | cons b bs ih => exact ih (Memory.wf_write hm a b) (a + 1)

@[simp] theorem Memory.load_epoch (m : Memory) (a : Nat) (bs : List Byte) : (m.load a bs).epoch = m.epoch := by
  induction bs generalizing m a with
  | nil => rfl
  | cons b bs ih => rw [Memory.load, ih, Memory.write_epoch]

/-- What an offset reads as after a byte string was loaded. -/
theorem Memory.read_load (m : Memory) (a : Nat) (bs : List Byte) (x : Nat) :
    (m.load a bs).read x = if a ≤ x then (bs[x - a]?).getD (m.read x) else m.read x := by
  induction bs generalizing m a with
  | nil => simp [Memory.load]
  | cons b bs ih =>
    rw [Memory.load, ih, Memory.read_write]
    rcases Nat.lt_trichotomy x a with h | h | h
    · rw [if_neg (by omega), if_neg (by omega), if_neg (by omega)]
    · subst h; simp
    · obtain ⟨k, rfl⟩ : ∃ k, x = a + 1 + k := ⟨x - (a + 1), by omega⟩
      have e : a + 1 + k - a = k + 1 := by omega
      rw [if_pos (by omega), if_neg (by omega), if_pos (by omega), e]
      simp

/-- A loaded memory lists only offsets of the old one and of the byte string. -/
theorem Memory.mem_load {m : Memory} {a : Nat} {bs : List Byte} {d : Host.Cell} (h : d ∈ (m.load a bs).cells) :
    d ∈ m.cells ∨ (a ≤ d.1 ∧ d.1 < a + bs.length) := by
  induction bs generalizing m a with
  | nil => exact .inl h
  | cons b bs ih =>
    rcases ih h with h | ⟨h1, h2⟩
    · rcases mem_insertCell h with h | rfl
      · exact .inl h
      · exact .inr ⟨Nat.le_refl _, by simp⟩
    · exact .inr ⟨by omega, by simp only [List.length_cons]; omega⟩

/-! ### The length of the frame -/

/-- `FLEN` once the host has written it. -/
theorem State.frameLength_written {s : State} (h : s.flenWritten = true) : s.frameLength = s.flen := by
  simp [State.frameLength, h]

/-- Every frame fits `FB`. -/
theorem State.frameLength_le {s : State} (h : s.flen ≤ Config.fbMax) : s.frameLength ≤ Config.fbMax := by
  rw [State.frameLength]
  split
  · exact h
  · exact Nat.le_of_lt_succ (Nat.mod_lt _ (Nat.succ_pos _))

/-- The frame's length depends only on `FLEN`, on whether it was written, and on the epoch of the free values. -/
theorem State.frameLength_congr {s t : State} (h1 : t.flen = s.flen) (h2 : t.flenWritten = s.flenWritten)
    (h3 : t.fb.epoch = s.fb.epoch) : t.frameLength = s.frameLength := by
  rw [State.frameLength, State.frameLength, h1, h2, h3]

/-! ### `MemRead` -/

/-- A field's value depends only on the bytes it covers. -/
theorem Memory.bigEndian_congr {m m' : Memory} {addr n : Nat}
    (h : ∀ a, addr ≤ a → a < addr + n → m.read a = m'.read a) :
    Memory.bigEndian m addr n = Memory.bigEndian m' addr n := by
  induction n with
  | zero => rfl
  | succ n ih =>
    rw [Memory.bigEndian, Memory.bigEndian, ih fun a h1 h2 => h a h1 (by omega), h (addr + n) (by omega) (by omega)]

theorem Memory.field_congr {m m' : Memory} {addr n : Nat}
    (h : ∀ a, addr ≤ a → a < addr + n → m.read a = m'.read a) :
    Memory.field m addr n = Memory.field m' addr n := by
  rw [Memory.field, Memory.field, Memory.bigEndian_congr h]

/-- `n` bytes hold a value of `8n` bits. -/
theorem Memory.bigEndian_lt (m : Memory) (addr n : Nat) : Memory.bigEndian m addr n < 2 ^ (8 * n) := by
  induction n with
  | zero => simp [Memory.bigEndian]
  | succ n ih =>
    have hb := (Memory.read m (addr + n)).isLt
    have e : 2 ^ (8 * (n + 1)) = 2 ^ (8 * n) * 256 := Nat.pow_add 2 (8 * n) 8
    rw [Memory.bigEndian, e]
    omega

theorem Memory.field_toNat (m : Memory) (addr n : Nat) :
    (Memory.field m addr n).toNat = Memory.bigEndian m addr n := by
  rw [Memory.field, BitVec.toNat_ofNat, Nat.mod_eq_of_lt (Memory.bigEndian_lt m addr n)]

/-- Inside the frame `MemRead` gives the field's value (R41, R43). -/
theorem memRead_inside {fb : Memory} {flen addr n : Nat} (h : addr + n ≤ flen) :
    memRead fb flen addr n = .ok (fb.field addr n) := by
  rw [memRead, if_pos h]

/-- A `MemRead` that would reach beyond the frame is a fault (R43). -/
theorem memRead_outside {fb : Memory} {flen addr n : Nat} (h : flen < addr + n) :
    memRead fb flen addr n = .error .readBeyondFrame := by
  rw [memRead, if_neg (by omega)]

end Sys2Proof.Machine
end

