-- ==== Sys2Proof/Laws/Views.lean ====
section
/-! SUPPORT. What each header view answers, once: none below its minimum length, its fields otherwise; no view reaches a
`MemRead` outside the frame (spec/40_header_views.md R90 to R97). -/

namespace Sys2Proof.Machine

theorem viewEth_eq (fb : Memory) (flen base : Nat) :
    viewEth fb flen base = .ok (if flen - base < 14 then none else
      some (⟨fb.field base 6, fb.field (base + 6) 6, fb.field (base + 12) 2⟩, base + 14)) := by
  by_cases h : flen - base < 14
  · simp [viewEth, h]
  · simp only [viewEth, h, if_false]
    rw [memRead_inside (by omega), memRead_inside (by omega), memRead_inside (by omega)]
    rfl

theorem viewIpv4_eq (fb : Memory) (flen base : Nat) :
    viewIpv4 fb flen base = .ok
      (let ihl := ihlOf (fb.field base 1)
       if flen - base < 20 ∨ ihl.toNat < 5 ∨ flen - base < 4 * ihl.toNat then none else
      some (⟨ihl, fb.field (base + 2) 2, fb.field (base + 9) 1, fb.field (base + 12) 4, fb.field (base + 16) 4⟩,
        base + 4 * ihl.toNat)) := by
  by_cases h : flen - base < 20
  · simp [viewIpv4, h]
  · have e : memRead fb flen (base + 0) 1 = .ok (fb.field base 1) := memRead_inside (by omega)
    simp only [viewIpv4, h, if_false, false_or, e, headerLength]
    by_cases h1 : (ihlOf (fb.field base 1)).toNat < 5
    · simp [bind, Except.bind, pure, Except.pure, h1]
    · by_cases h2 : flen - base < 4 * (ihlOf (fb.field base 1)).toNat
      · simp [bind, Except.bind, pure, Except.pure, h1, h2]
      · simp only [bind, Except.bind, h1, h2, if_false, or_self]
        rw [memRead_inside (by omega), memRead_inside (by omega), memRead_inside (by omega), memRead_inside (by omega)]
        rfl

theorem viewIpv6_eq (fb : Memory) (flen base : Nat) :
    viewIpv6 fb flen base = .ok (if flen - base < 40 then none else
      some (⟨fb.field (base + 4) 2, fb.field (base + 6) 1, fb.field (base + 8) 16, fb.field (base + 24) 16⟩,
        base + 40)) := by
  by_cases h : flen - base < 40
  · simp [viewIpv6, h]
  · simp only [viewIpv6, h, if_false]
    rw [memRead_inside (by omega), memRead_inside (by omega), memRead_inside (by omega), memRead_inside (by omega)]
    rfl

theorem viewArp_eq (fb : Memory) (flen base : Nat) :
    viewArp fb flen base = .ok (if flen - base < 28 then none else
      some ⟨fb.field base 2, fb.field (base + 5) 1, fb.field (base + 6) 2, fb.field (base + 8) 6,
        fb.field (base + 14) 4, fb.field (base + 18) 6, fb.field (base + 24) 4⟩) := by
  by_cases h : flen - base < 28
  · simp [viewArp, h]
  · simp only [viewArp, h, if_false]
    rw [memRead_inside (by omega), memRead_inside (by omega), memRead_inside (by omega), memRead_inside (by omega), memRead_inside (by omega), memRead_inside (by omega), memRead_inside (by omega)]
    rfl

theorem viewTcp_eq (fb : Memory) (flen base : Nat) :
    viewTcp fb flen base = .ok (if flen - base < 20 then none else
      some ⟨fb.field base 2, fb.field (base + 2) 2⟩) := by
  by_cases h : flen - base < 20
  · simp [viewTcp, h]
  · simp only [viewTcp, h, if_false]
    rw [memRead_inside (by omega), memRead_inside (by omega)]
    rfl

theorem viewUdp_eq (fb : Memory) (flen base : Nat) :
    viewUdp fb flen base = .ok (if flen - base < 8 then none else
      some ⟨fb.field base 2, fb.field (base + 2) 2⟩) := by
  by_cases h : flen - base < 8
  · simp [viewUdp, h]
  · simp only [viewUdp, h, if_false]
    rw [memRead_inside (by omega), memRead_inside (by omega)]
    rfl

end Sys2Proof.Machine
end

