-- ==== Sys2Proof/Laws/Exec.lean ====
section
/-! SUPPORT. What each parser operation does, once, in terms of the shared updates: later proofs cite these equations and the
field lemmas of Laws/State.lean, and unfold neither a view nor a record update. -/

namespace Sys2Proof.Machine

/-- `DoneFrom` is the `DONE` entry action. -/
theorem doneFrom_enterDone (u : State) : DoneFrom u (enterDone u) := ⟨rfl, rfl⟩

theorem exec_cmdSummarize (l : Label) (s : State) :
    exec (.cmdSummarize l) s = .next (acceptCommand .summarize l s) := rfl

theorem exec_cmdProcess (l : Label) (s : State) :
    exec (.cmdProcess l) s = .next (acceptCommand .process l s) := rfl

theorem acceptCommand_busy {s : State} (h : s.ps.busy = true) (m : Mode) (l : Label) : acceptCommand m l s = s := by
  rw [acceptCommand, if_pos h]

theorem acceptCommand_waiting {s : State} (h : s.ps.busy = false) (m : Mode) (l : Label) :
    acceptCommand m l s = startCommand m l s := by
  rw [acceptCommand, if_neg (by simp [h])]

theorem exec_l2Eth (s : State) :
    exec .l2Eth s = .next (if s.frameLength < 14 then raiseEvent .rejected { s with off := 0 }
      else loadEth ⟨s.fb.field 0 6, s.fb.field 6 6, s.fb.field 12 2⟩ 14 s) := by
  show execL2Eth s = _
  rw [execL2Eth, viewEth_eq]
  by_cases h : s.frameLength < 14 <;> simp [h]

theorem exec_l3Ipv4 (s : State) :
    exec .l3Ipv4 s = .next
      (let ihl := ihlOf (s.fb.field s.off 1)
       if s.frameLength - s.off < 20 ∨ ihl.toNat < 5 ∨ s.frameLength - s.off < 4 * ihl.toNat then raiseEvent .malformedL3 s
      else loadIpv4 ⟨ihl, s.fb.field (s.off + 2) 2, s.fb.field (s.off + 9) 1, s.fb.field (s.off + 12) 4,
        s.fb.field (s.off + 16) 4⟩ (s.off + 4 * ihl.toNat) s) := by
  show execL3Ipv4 s = _
  rw [execL3Ipv4, viewIpv4_eq]
  dsimp only
  split <;> rename_i h
  · split at h <;> cases h
  · split at h <;> cases h
    rw [if_pos (by assumption)]
  · split at h <;> cases h
    rw [if_neg (by assumption)]

theorem exec_l3Ipv6 (s : State) :
    exec .l3Ipv6 s = .next (if s.frameLength - s.off < 40 then raiseEvent .malformedL3 s
      else loadIpv6 ⟨s.fb.field (s.off + 4) 2, s.fb.field (s.off + 6) 1, s.fb.field (s.off + 8) 16,
        s.fb.field (s.off + 24) 16⟩ (s.off + 40) s) := by
  show execL3Ipv6 s = _
  rw [execL3Ipv6, viewIpv6_eq]
  by_cases h : s.frameLength - s.off < 40 <;> simp [h]

theorem exec_l3Arp (s : State) :
    exec .l3Arp s = .next (if s.frameLength - s.off < 28 then raiseEvent .malformedL3 s
      else loadArp ⟨s.fb.field s.off 2, s.fb.field (s.off + 5) 1, s.fb.field (s.off + 6) 2, s.fb.field (s.off + 8) 6,
        s.fb.field (s.off + 14) 4, s.fb.field (s.off + 18) 6, s.fb.field (s.off + 24) 4⟩ s) := by
  show execL3Arp s = _
  rw [execL3Arp, viewArp_eq]
  by_cases h : s.frameLength - s.off < 28 <;> simp [h]

theorem exec_l3Other (k : BitVec 16) (s : State) : exec (.l3Other k) s = .next (raiseEvent .unsupportedL3 s) := rfl

theorem exec_l4Tcp (s : State) :
    exec .l4Tcp s = .next (if s.frameLength - s.off < 20 then raiseEvent .malformedL4 s
      else loadPorts .tcp ⟨s.fb.field s.off 2, s.fb.field (s.off + 2) 2⟩ s) := by
  show execL4Tcp s = _
  rw [execL4Tcp, viewTcp_eq]
  by_cases h : s.frameLength - s.off < 20 <;> simp [h]

theorem exec_l4Udp (s : State) :
    exec .l4Udp s = .next (if s.frameLength - s.off < 8 then raiseEvent .malformedL4 s
      else loadPorts .udp ⟨s.fb.field s.off 2, s.fb.field (s.off + 2) 2⟩ s) := by
  show execL4Udp s = _
  rw [execL4Udp, viewUdp_eq]
  by_cases h : s.frameLength - s.off < 8 <;> simp [h]

theorem exec_l4Other (k : BitVec 8) (s : State) : exec (.l4Other k) s = .next (raiseEvent .unsupportedL4 s) := rfl

end Sys2Proof.Machine
end

