-- ==== Sys2Proof/Laws/PerInstr.lean ====
section
/-! SUPPORT. Per-instruction laws: the key the encoder gives a well-formed operation carries the bits its row of
spec/opcode_table.json fixes (`mask` and `match`), in the row's key space (spec/30_encoding.md R68 to R71). -/

namespace Sys2Proof.Laws.EncodesToTableRow

/-- `mask` and `match` of an operation's row, as spec/opcode_table.json gives them. -/
def row : Instr → Nat × Nat
  | .cmdSummarize _ => (0x1, 0x0)
  | .cmdProcess _ => (0x1, 0x1)
  | .l2Eth => (0x0, 0x0)
  | .l3Ipv4 => (0xFFFF, 0x0800)
  | .l3Ipv6 => (0xFFFF, 0x86DD)
  | .l3Arp => (0xFFFF, 0x0806)
  | .l3Other _ => (0x0000, 0x0000)
  | .l4Tcp => (0xFF, 0x06)
  | .l4Udp => (0xFF, 0x11)
  | .l4Other _ => (0x00, 0x00)

/-- The bits of a key that its row numbers: of a `CMD` write bit 0, whose label is of the open type. -/
def keyBits : Key → Nat
  | .command mode _ _ => mode.toNat
  | .layer2 => 0
  | .layer3 k => k.toNat
  | .layer4 k => k.toNat

/-- The law: under the row's mask the encoded key is the row's match. -/
def Statement (i : Instr) : Prop := i.wellFormed = true → keyBits (encode i) &&& (row i).1 = (row i).2

theorem cmdSummarize (label : Label) : Statement (.cmdSummarize label) := fun _ => by simp [keyBits, encode, row]

theorem cmdProcess (label : Label) : Statement (.cmdProcess label) := fun _ => by simp [keyBits, encode, row]

theorem l2Eth : Statement .l2Eth := fun _ => rfl

theorem l3Ipv4 : Statement .l3Ipv4 := fun _ => rfl

theorem l3Ipv6 : Statement .l3Ipv6 := fun _ => rfl

theorem l3Arp : Statement .l3Arp := fun _ => rfl

theorem l3Other (etherType : BitVec 16) : Statement (.l3Other etherType) := fun _ => Nat.and_zero _

theorem l4Tcp : Statement .l4Tcp := fun _ => rfl

theorem l4Udp : Statement .l4Udp := fun _ => rfl

theorem l4Other (key : BitVec 8) : Statement (.l4Other key) := fun _ => Nat.and_zero _

end Sys2Proof.Laws.EncodesToTableRow
end

