-- ==== Sys2Proof/Laws/Step.lean ====
section
/-! SUPPORT. What one step can do, once: the cases of `turn`. Every claim about `step` starts from one of these. -/

namespace Sys2Proof.Machine

/-- A parser's turn in a state with a key runs the key's operation. -/
theorem step_of_key {s : State} {k : Key} (hi : s.inputs = []) (hk : s.parserKey = some k) :
    step s = exec (decode k) s := by
  simp [step, State.turn, hi, parserTurn, hk]

/-- In `IDLE` and `DONE` the parser waits. -/
theorem step_waiting {s : State} (hi : s.inputs = []) (hk : s.parserKey = none) : step s = .next s := by
  simp [step, State.turn, hi, parserTurn, hk]

theorem step_tick (s : State) (rest : List Input) :
    step { s with inputs := .tick :: rest } =
      match s.parserKey with
      | some k => exec (decode k) { s with inputs := rest }
      | none => .next { s with inputs := rest } := by
  simp only [step, State.turn, parserTurn, State.parserKey]
  cases s.ps <;> rfl

/-- A `CMD` write runs the command its bit 0 selects. -/
theorem step_command (s : State) (m : BitVec 1) (l : Label) (above : Nat) (rest : List Input) :
    step { s with inputs := .host (.writeCmd m l above) :: rest } =
      exec (decode (.command m l above)) { s with inputs := rest } := rfl

theorem step_readCmd (s : State) (rest : List Input) :
    step { s with inputs := .host .readCmd :: rest } = .fault .writeOnlyRegisterRead := rfl

theorem step_writeFb (s : State) (a : Nat) (b : Byte) (rest : List Input) :
    step { s with inputs := .host (.writeFb a b) :: rest } = hostWriteFb a b { s with inputs := rest } := rfl

theorem step_readFb (s : State) (a : Nat) (rest : List Input) :
    step { s with inputs := .host (.readFb a) :: rest } = hostReadFb a { s with inputs := rest } := rfl

theorem step_readReg (s : State) (r : Reg) (rest : List Input) :
    step { s with inputs := .host (.readReg r) :: rest } = hostReadReg r { s with inputs := rest } := rfl

theorem step_writeReg (s : State) (r : Reg) (v : Nat) (rest : List Input) :
    step { s with inputs := .host (.writeReg r v) :: rest } = hostWriteReg r v { s with inputs := rest } := rfl

theorem step_sink (s : State) (rest : List Input) :
    step { s with inputs := .sink :: rest } = .next (sinkTake { s with inputs := rest }) := rfl

theorem step_reset (s : State) (rest : List Input) :
    step { s with inputs := .reset :: rest } = .next (assertReset { s with inputs := rest }) := rfl

/-- Everything a step can be: waiting, a parser operation, or an input of one of the other agents. -/
theorem step_cases (s : State) :
    (s.parserKey = none ∧ (s.inputs = [] ∨ s.inputs.head? = some .tick) ∧
        step s = .next { s with inputs := s.inputs.tail }) ∨
    (∃ k, s.parserKey = some k ∧ (s.inputs = [] ∨ s.inputs.head? = some .tick) ∧
        step s = exec (decode k) { s with inputs := s.inputs.tail }) ∨
    (∃ m l above, s.inputs.head? = some (.host (.writeCmd m l above)) ∧
        step s = exec (decode (.command m l above)) { s with inputs := s.inputs.tail }) ∨
    (s.inputs.head? = some (.host .readCmd) ∧ step s = .fault .writeOnlyRegisterRead) ∨
    (∃ r v, s.inputs.head? = some (.host (.writeReg r v)) ∧
        step s = hostWriteReg r v { s with inputs := s.inputs.tail }) ∨
    (∃ r, s.inputs.head? = some (.host (.readReg r)) ∧ step s = hostReadReg r { s with inputs := s.inputs.tail }) ∨
    (∃ a b, s.inputs.head? = some (.host (.writeFb a b)) ∧ step s = hostWriteFb a b { s with inputs := s.inputs.tail }) ∨
    (∃ a, s.inputs.head? = some (.host (.readFb a)) ∧ step s = hostReadFb a { s with inputs := s.inputs.tail }) ∨
    (s.inputs.head? = some .sink ∧ step s = .next (sinkTake { s with inputs := s.inputs.tail })) ∨
    (s.inputs.head? = some .reset ∧ step s = .next (assertReset { s with inputs := s.inputs.tail })) := by
  obtain ⟨fb, flen, ps, off, l4key, mode, label, a2, a3, a4, eth, ip4, ip6, arp, ports, sum, q, inputs, hd, fc, fw⟩ := s
  cases inputs with
  | nil => cases ps <;> simp [step, State.turn, parserTurn, State.parserKey]
  | cons i rest =>
    cases i with
    | tick => cases ps <;> simp [step, State.turn, parserTurn, State.parserKey]
    | sink => simp [step, State.turn]
    | reset => simp [step, State.turn]
    | host a =>
      cases a with
      | writeCmd m l above => exact .inr (.inr (.inl ⟨m, l, above, rfl, rfl⟩))
      | readCmd => exact .inr (.inr (.inr (.inl ⟨rfl, rfl⟩)))
      | writeReg r v => exact .inr (.inr (.inr (.inr (.inl ⟨r, v, rfl, rfl⟩))))
      | readReg r => exact .inr (.inr (.inr (.inr (.inr (.inl ⟨r, rfl, rfl⟩)))))
      | writeFb x b => exact .inr (.inr (.inr (.inr (.inr (.inr (.inl ⟨x, b, rfl, rfl⟩))))))
      | readFb x => exact .inr (.inr (.inr (.inr (.inr (.inr (.inr (.inl ⟨x, rfl, rfl⟩)))))))

end Sys2Proof.Machine
end

