-- ==== Sys2Proof/Tests/Slice0.lean ====
section
/-! SUPPORT. Tests. The frames and the expected values are those of spec/95_test_vectors.md (vectors V<n>, programs P<n>);
the keys are those of spec/30_encoding.md R68 to R70. Witness theorems show, for each statement of
Certificates/Slice0/Obligations.lean that has hypotheses, values that meet them together, one for each clause. -/

open Sys2Proof Sys2Proof.Machine

namespace Sys2Proof.Tests

/-! ### Helpers -/

/-- V2: 13 bytes. -/
def v2 : List Byte :=
  [
    0xaa, 0xbb, 0xcc, 0xdd, 0xee, 0xff, 0x11, 0x22, 0x33, 0x44, 0x55, 0x66, 0x08]

/-- V4: an unlisted ethertype, empty payload. -/
def v4 : List Byte :=
  [
    0xaa, 0xbb, 0xcc, 0xdd, 0xee, 0xff, 0x11, 0x22, 0x33, 0x44, 0x55, 0x66, 0x12, 0x34]

/-- V12: IPv4 with an unlisted protocol, empty payload. -/
def v12 : List Byte :=
  [
    0xaa, 0xbb, 0xcc, 0xdd, 0xee, 0xff, 0x11, 0x22, 0x33, 0x44, 0x55, 0x66, 0x08, 0x00, 0x45, 0x00, 0x00, 0x14, 0x00, 0x00,
    0x40, 0x00, 0x40, 0x01, 0x00, 0x00, 0x01, 0x02, 0x03, 0x04, 0x05, 0x06, 0x07, 0x08]

/-- V13: IPv4 with `IHL = 4`. -/
def v13 : List Byte :=
  [
    0xaa, 0xbb, 0xcc, 0xdd, 0xee, 0xff, 0x11, 0x22, 0x33, 0x44, 0x55, 0x66, 0x08, 0x00, 0x44, 0x00, 0x00, 0x00, 0x00, 0x00,
    0x40, 0x00, 0x40, 0x06, 0x00, 0x00, 0x01, 0x02, 0x03, 0x04, 0x05, 0x06, 0x07, 0x08, 0x00, 0x01, 0x00, 0x02, 0x00, 0x00,
    0x00, 0x01, 0x00, 0x00, 0x00, 0x00, 0x50, 0x02, 0xff, 0xff, 0x00, 0x00, 0x00, 0x00]

/-- V18: the longest header chain, 94 bytes. -/
def v18 : List Byte :=
  [
    0xaa, 0xbb, 0xcc, 0xdd, 0xee, 0xff, 0x11, 0x22, 0x33, 0x44, 0x55, 0x66, 0x08, 0x00, 0x4f, 0x00, 0x00, 0x00, 0x00, 0x00,
    0x40, 0x00, 0x40, 0x06, 0x00, 0x00, 0x01, 0x02, 0x03, 0x04, 0x05, 0x06, 0x07, 0x08, 0x00, 0x00, 0x00, 0x00, 0x00, 0x00,
    0x00, 0x00, 0x00, 0x00, 0x00, 0x00, 0x00, 0x00, 0x00, 0x00, 0x00, 0x00, 0x00, 0x00, 0x00, 0x00, 0x00, 0x00, 0x00, 0x00,
    0x00, 0x00, 0x00, 0x00, 0x00, 0x00, 0x00, 0x00, 0x00, 0x00, 0x00, 0x00, 0x00, 0x00, 0xff, 0xff, 0x00, 0x00, 0x00, 0x00,
    0x00, 0x01, 0x00, 0x00, 0x00, 0x00, 0x50, 0x02, 0xff, 0xff, 0x00, 0x00, 0x00, 0x00]

/-- V20, P1: the source document's own scenario. -/
def v20 : List Byte :=
  [
    0xaa, 0xbb, 0xcc, 0xdd, 0xee, 0xff, 0x11, 0x22, 0x33, 0x44, 0x55, 0x66, 0x08, 0x00, 0x45, 0x00, 0x00, 0x28, 0x00, 0x00,
    0x40, 0x00, 0x40, 0x06, 0x00, 0x00, 0xc0, 0xa8, 0x01, 0x0a, 0x08, 0x08, 0x08, 0x08, 0x01, 0xbb, 0xc7, 0x38, 0x00, 0x00,
    0x00, 0x01, 0x00, 0x00, 0x00, 0x00, 0x50, 0x02, 0xff, 0xff, 0x00, 0x00, 0x00, 0x00]

/-- V21: a UDP header of 7 bytes. -/
def v21 : List Byte :=
  [
    0xaa, 0xbb, 0xcc, 0xdd, 0xee, 0xff, 0x11, 0x22, 0x33, 0x44, 0x55, 0x66, 0x08, 0x00, 0x45, 0x00, 0x00, 0x00, 0x00, 0x00,
    0x40, 0x00, 0x40, 0x11, 0x00, 0x00, 0x01, 0x02, 0x03, 0x04, 0x05, 0x06, 0x07, 0x08, 0x00, 0x07, 0x00, 0x09, 0x00, 0x08,
    0x00]

/-- V22: the same UDP header, whole. -/
def v22 : List Byte :=
  [
    0xaa, 0xbb, 0xcc, 0xdd, 0xee, 0xff, 0x11, 0x22, 0x33, 0x44, 0x55, 0x66, 0x08, 0x00, 0x45, 0x00, 0x00, 0x00, 0x00, 0x00,
    0x40, 0x00, 0x40, 0x11, 0x00, 0x00, 0x01, 0x02, 0x03, 0x04, 0x05, 0x06, 0x07, 0x08, 0x00, 0x07, 0x00, 0x09, 0x00, 0x08,
    0x00, 0x00]

/-- V32: IPv6 and UDP. -/
def v32 : List Byte :=
  [
    0x33, 0x33, 0x00, 0x00, 0x00, 0x01, 0x02, 0x00, 0x00, 0x00, 0x00, 0x01, 0x86, 0xdd, 0x60, 0x00, 0x00, 0x00, 0x00, 0x08,
    0x11, 0x40, 0xff, 0xff, 0xff, 0xff, 0xff, 0xff, 0xff, 0xff, 0xff, 0xff, 0xff, 0xff, 0xff, 0xff, 0xff, 0xff, 0x00, 0x00,
    0x00, 0x00, 0x00, 0x00, 0x00, 0x00, 0x00, 0x00, 0x00, 0x00, 0x00, 0x00, 0x00, 0x00, 0x00, 0x01, 0x00, 0x02, 0x00, 0x08,
    0x00, 0x00]

/-- V34: an ARP packet of 27 bytes. -/
def v34 : List Byte :=
  [
    0xff, 0xff, 0xff, 0xff, 0xff, 0xff, 0x11, 0x22, 0x33, 0x44, 0x55, 0x66, 0x08, 0x06, 0x00, 0x01, 0x08, 0x00, 0x06, 0x04,
    0x00, 0x01, 0x11, 0x22, 0x33, 0x44, 0x55, 0x66, 0xc0, 0xa8, 0x01, 0x0a, 0x00, 0x00, 0x00, 0x00, 0x00, 0x00, 0xc0, 0xa8,
    0x01]

/-- V36: an ARP reply. -/
def v36 : List Byte :=
  [
    0x11, 0x22, 0x33, 0x44, 0x55, 0x66, 0xaa, 0xbb, 0xcc, 0xdd, 0xee, 0xff, 0x08, 0x06, 0x00, 0x01, 0x08, 0x00, 0x06, 0x04,
    0x00, 0x02, 0xaa, 0xbb, 0xcc, 0xdd, 0xee, 0xff, 0xc0, 0xa8, 0x01, 0x01, 0x11, 0x22, 0x33, 0x44, 0x55, 0x66, 0xc0, 0xa8,
    0x01, 0x0a]

/-- V37: an ARP packet for other address sizes. -/
def v37 : List Byte :=
  [
    0xff, 0xff, 0xff, 0xff, 0xff, 0xff, 0x11, 0x22, 0x33, 0x44, 0x55, 0x66, 0x08, 0x06, 0x00, 0x06, 0x86, 0xdd, 0x08, 0x10,
    0x00, 0x09, 0x00, 0x01, 0x02, 0x03, 0x04, 0x05, 0x06, 0x07, 0x08, 0x09, 0x0a, 0x0b, 0x0c, 0x0d, 0x0e, 0x0f, 0x10, 0x11,
    0x12, 0x13]

/-- The instance right after reset with a frame loaded, the parser in `ps` at `off`. -/
def onFrame (ps : ParserState) (off : Nat) (frame : List Byte) : State :=
  { State.reset with fb := Memory.blank.load 0 frame, flen := frame.length, flenWritten := true, ps := ps, off := off }

/-- The state after an outcome, when there is one. -/
def after (o : Host.Outcome State Fault Refusal) : Option State :=
  match o with
  | .next t => some t
  | .fault _ => none
  | .refused _ => none

/-! ### WellFormed: what each check refuses -/

theorem test_wf_refuses_listed_etherTypes :
    (Instr.l3Other 0x0800).wellFormed = false ∧ (Instr.l3Other 0x86DD).wellFormed = false ∧
    (Instr.l3Other 0x0806).wellFormed = false := by decide

theorem test_wf_refuses_listed_protocols :
    (Instr.l4Other 6).wellFormed = false ∧ (Instr.l4Other 17).wellFormed = false := by decide

theorem test_wf_takes_the_rest :
    (Instr.l3Other 0x1234).wellFormed = true ∧ (Instr.l4Other 1).wellFormed = true ∧ Instr.l2Eth.wellFormed = true ∧
    Instr.l3Arp.wellFormed = true ∧ Instr.l4Tcp.wellFormed = true := by decide

/-! ### Decoding: keys written out bit by bit -/

theorem test_decode_command_mode_0 (l : Label) : decode (.command 0b0 l 0) = .cmdSummarize l := rfl

theorem test_decode_command_mode_1 (l : Label) : decode (.command 0b1 l 0) = .cmdProcess l := rfl

/-- The bits above the label do not matter (R72). -/
theorem test_decode_command_above (l : Label) :
    decode (.command 0b1 l 0b101) = .cmdProcess l ∧ decode (.command 0b0 l 0b111) = .cmdSummarize l := ⟨rfl, rfl⟩

theorem test_decode_layer2 : decode .layer2 = .l2Eth := rfl

theorem test_decode_etherTypes :
    decode (.layer3 0b0000100000000000) = .l3Ipv4 ∧ decode (.layer3 0b1000011011011101) = .l3Ipv6 ∧
    decode (.layer3 0b0000100000000110) = .l3Arp := by decide

/-- V4 to V9: unlisted codes, `0x0800` with its bytes swapped and its neighbour among them. -/
theorem test_decode_etherType_default :
    decode (.layer3 0x1234) = .l3Other 0x1234 ∧ decode (.layer3 0x8100) = .l3Other 0x8100 ∧
    decode (.layer3 0x05DC) = .l3Other 0x05DC ∧ decode (.layer3 0x0801) = .l3Other 0x0801 ∧
    decode (.layer3 0x0008) = .l3Other 0x0008 := ⟨rfl, rfl, rfl, rfl, rfl⟩

theorem test_decode_protocols :
    decode (.layer4 0b00000110) = .l4Tcp ∧ decode (.layer4 0b00010001) = .l4Udp := by decide

/-- V12, V25, V26, V29, V30. -/
theorem test_decode_protocol_default :
    decode (.layer4 1) = .l4Other 1 ∧ decode (.layer4 0) = .l4Other 0 ∧ decode (.layer4 255) = .l4Other 255 ∧
    decode (.layer4 59) = .l4Other 59 := ⟨rfl, rfl, rfl, rfl⟩

theorem test_table_words_of_commands :
    decodeTableWord 1 0 = some (.cmdSummarize .first) ∧ decodeTableWord 1 1 = some (.cmdProcess .first) ∧
    decodeTableWord 8 0 = some (.cmdSummarize .first) ∧ decodeTableWord 8 1 = some (.cmdProcess .first) :=
  ⟨rfl, rfl, rfl, rfl⟩

theorem test_table_words_of_layers :
    decodeTableWord 0 0 = some .l2Eth ∧ decodeTableWord 16 0x0800 = some .l3Ipv4 ∧
    decodeTableWord 16 0x86DD = some .l3Ipv6 ∧ decodeTableWord 16 0x0806 = some .l3Arp ∧
    decodeTableWord 16 0 = some (.l3Other 0) ∧ decodeTableWord 8 0x06 = some .l4Tcp ∧
    decodeTableWord 8 0x11 = some .l4Udp ∧ decodeTableWord 8 0x3A = some (.l4Other 0x3A) :=
  ⟨rfl, rfl, rfl, rfl, rfl, rfl, rfl, rfl⟩

/-! ### The fetch -/

theorem test_fetch_keys :
    (State.reset.withFetchWord 0 0).parserKey = some .layer2 ∧
    (State.reset.withFetchWord 16 0x86DD).parserKey = some (.layer3 0x86DD) ∧
    (State.reset.withFetchWord 8 17).parserKey = some (.layer4 17) := ⟨rfl, rfl, rfl⟩

theorem test_fetched_words_run :
    isNext (step (State.reset.withFetchWord 1 0)) = true ∧ isNext (step (State.reset.withFetchWord 1 1)) = true ∧
    isNext (step (State.reset.withFetchWord 0 0)) = true ∧
    isNext (step (State.reset.withFetchWord 16 0x0800)) = true ∧
    isNext (step (State.reset.withFetchWord 16 0x86DD)) = true ∧
    isNext (step (State.reset.withFetchWord 16 0x0806)) = true ∧
    isNext (step (State.reset.withFetchWord 16 0)) = true ∧ isNext (step (State.reset.withFetchWord 8 6)) = true ∧
    isNext (step (State.reset.withFetchWord 8 17)) = true ∧ isNext (step (State.reset.withFetchWord 8 2)) = true :=
  ⟨rfl, rfl, rfl, rfl, rfl, rfl, rfl, rfl, rfl, rfl⟩

/-! ### One operation at a time -/

/-- Section 2.6, first row. -/
theorem test_summarize_from_idle :
    (after (exec (.cmdSummarize .first) (onFrame .idle 0 v20))).map (fun t => (t.ps, t.off, t.mode, t.l2Status, t.sum.kind))
      = some (.l2, 0, .summarize, .none, .na) := by decide

/-- Section 2.6, fourth row. -/
theorem test_process_while_busy :
    exec (.cmdProcess .first) (onFrame .l3 14 v20) = .next (onFrame .l3 14 v20) := rfl

/-- Section 2.6, third row. -/
theorem test_process_from_done :
    (after (exec (.cmdProcess .first) (onFrame .done 34 v2))).map (fun t => (t.ps, t.off, t.mode, t.l3Status, t.reportQ.length))
      = some (.l2, 0, .process, .none, 0) := by decide

/-- P1, step 1. -/
theorem test_eth_v20 :
    (after (exec .l2Eth (onFrame .l2 0 v20))).map (fun t => (t.eth, t.l2Status, t.ps, t.off))
      = some (⟨0xAABBCCDDEEFF, 0x112233445566, 0x0800⟩, .ok, .l3, 14) := by decide

theorem test_eth_v2 :
    (after (exec .l2Eth (onFrame .l2 0 v2))).map (fun t => (t.l2Status, t.l3Status, t.ps, t.off, t.sum.kind))
      = some (.rejected, .none, .done, 0, .na) := by decide

/-- P1, step 2. -/
theorem test_ipv4_v20 :
    (after (exec .l3Ipv4 (onFrame .l3 14 v20))).map (fun t => (t.ip4, t.sum, t.l4key, t.l3Status, t.ps, t.off))
      = some (⟨5, 40, 6, 0xC0A8010A, 0x08080808⟩, ⟨.v4, 0xC0A8010A, 0x08080808⟩, 6, .ipv4, .l4, 34) := by decide

theorem test_ipv4_v13 :
    (after (exec .l3Ipv4 (onFrame .l3 14 v13))).map (fun t => (t.l3Status, t.ps, t.off, t.sum.kind))
      = some (.malformed, .done, 14, .na) := by decide

/-- V32, section 2.3. -/
theorem test_ipv6_v32 :
    (after (exec .l3Ipv6 (onFrame .l3 14 v32))).map (fun t => (t.ip6, t.sum.kind, t.l4key, t.ps, t.off))
      = some (⟨8, 17, 0xFFFFFFFFFFFFFFFFFFFFFFFFFFFFFFFF, 0⟩, .v6, 17, .l4, 54) := by decide

/-- 39 bytes are no IPv6 header, as in V27. -/
theorem test_ipv6_short :
    (after (exec .l3Ipv6 (onFrame .l3 14 (v32.take 53)))).map (fun t => (t.l3Status, t.ps, t.off))
      = some (.malformed, .done, 14) := by decide

/-- V36, section 2.3: the sender is the source. -/
theorem test_arp_v36 :
    (after (exec .l3Arp (onFrame .l3 14 v36))).map (fun t => (t.arp, t.sum, t.l3Status, t.ps, t.off))
      = some (⟨1, 4, 2, 0xAABBCCDDEEFF, 0xC0A80101, 0x112233445566, 0xC0A8010A⟩, ⟨.v4, 0xC0A80101, 0xC0A8010A⟩,
        .arp, .done, 14) := by decide

theorem test_arp_v34 :
    (after (exec .l3Arp (onFrame .l3 14 v34))).map (fun t => (t.l3Status, t.sum.kind, t.ps))
      = some (.malformed, .na, .done) := by decide

theorem test_l3_other_v4 :
    (after (exec (.l3Other 0x1234) (onFrame .l3 14 v4))).map (fun t => (t.l3Status, t.sum.kind, t.ps, t.off))
      = some (.unsupported, .na, .done, 14) := by decide

/-- P1, step 3; section 2.6: in `PROCESS` mode one record. -/
theorem test_tcp_v20 :
    (after (exec .l4Tcp { onFrame .l4 34 v20 with mode := .process })).map
        (fun t => (t.ports, t.l4Status, t.ps, t.off, t.reportQ.map (·.ports)))
      = some (⟨443, 51000⟩, .tcp, .done, 34, [some ⟨443, 51000⟩]) := by decide

/-- V19: 19 bytes are no TCP header. -/
theorem test_tcp_short :
    (after (exec .l4Tcp (onFrame .l4 34 (v20.take 53)))).map (fun t => (t.l4Status, t.ps, t.reportQ.length))
      = some (.malformed, .done, 0) := by decide

theorem test_udp_v22 :
    (after (exec .l4Udp (onFrame .l4 34 v22))).map (fun t => (t.ports, t.l4Status, t.ps)) = some (⟨7, 9⟩, .udp, .done) := by
  decide

theorem test_udp_v21 :
    (after (exec .l4Udp (onFrame .l4 34 v21))).map (fun t => (t.l4Status, t.ps, t.off)) = some (.malformed, .done, 34) := by
  decide

/-- V12: unsupported is never malformed, even with an empty payload. -/
theorem test_l4_other_v12 :
    (after (exec (.l4Other 1) (onFrame .l4 34 v12))).map (fun t => (t.l4Status, t.ps, t.off))
      = some (.unsupported, .done, 34) := by decide

/-! ### The pure decode -/

/-- V18, section 2.3. -/
theorem test_decodeFrame_v18 :
    let r := decodeFrame (Memory.blank.load 0 v18) 94
    (r.l2, r.l3, r.l4, r.off) = (.ok, .ipv4, .tcp, 74) ∧ r.ip4 = some ⟨15, 0, 6, 0x01020304, 0x05060708⟩ ∧
      r.ports = some ⟨0xFFFF, 0⟩ := by decide

/-- V37, section 2.3. -/
theorem test_decodeFrame_v37 :
    let r := decodeFrame (Memory.blank.load 0 v37) 42
    (r.l2, r.l3, r.l4, r.off) = (.ok, .arp, .none, 14) ∧
      r.arp = some ⟨6, 16, 9, 0x000102030405, 0x06070809, 0x0A0B0C0D0E0F, 0x10111213⟩ := by decide

/-- P1 in the frame notation, expanded by the layouts and defaults of R76, gives the bytes of V20. -/
theorem test_notation_p1 :
    (FrameText.expand ⟨[.eth ⟨0xAABBCCDDEEFF, 0x112233445566, 0x0800⟩,
      .ipv4 (Ipv4Line.mk 0xC0A8010A 0x08080808 6 40 5 4 0 0 0x4000 64 0 []),
      .tcp (TcpLine.mk 443 51000 1 0 5 2 0xFFFF 0 0)], none⟩) = v20 := by decide

/-! ### Text (section 2.5) -/

theorem test_renderV4 :
    renderV4 0 = ['0', '.', '0', '.', '0', '.', '0'] ∧
    renderV4 0xC0A8010A = ['1', '9', '2', '.', '1', '6', '8', '.', '1', '.', '1', '0'] := by decide

theorem test_renderV6_runs :
    renderV6 0 = [':', ':'] ∧ renderV6 1 = [':', ':', '1'] ∧
    renderV6 0x00010000000000000000000000000000 = ['1', ':', ':'] ∧
    renderV6 0x00000000000000000000000100000000 = [':', ':', '1', ':', '0', ':', '0'] := by decide

theorem test_renderV6_ties :
    renderV6 0x00001000000000001000000000000001 =
      ['0', ':', '1', '0', '0', '0', ':', ':', '1', '0', '0', '0', ':', '0', ':', '0', ':', '1'] ∧
    renderV6 0x00010000000100010001000100010001 =
      ['1', ':', '0', ':', '1', ':', '1', ':', '1', ':', '1', ':', '1', ':', '1'] := by decide

/-! ### Witnesses: the hypotheses of the statements can be met -/

/-- Keys of each clause of the default rows, next to the listed ones. -/
theorem witness_EveryKeySelectsItsRow :
    (0x0801 : BitVec 16) ≠ 0x0800 ∧ (0x0801 : BitVec 16) ≠ 0x86DD ∧ (0x0801 : BitVec 16) ≠ 0x0806 ∧
    (7 : BitVec 8) ≠ 6 ∧ (7 : BitVec 8) ≠ 17 := by decide

theorem witness_DecodeOfEncodeIsTheOperation :
    (Instr.l3Other 0xFFFF).wellFormed = true ∧ (Instr.l4Other 255).wellFormed = true ∧
    (Instr.cmdProcess .first).wellFormed = true := ⟨rfl, rfl, rfl⟩

theorem witness_StepRunsTheSelectedOperation :
    (onFrame .l2 0 v20).parserKey = some .layer2 ∧ (onFrame .l3 14 v20).parserKey = some (.layer3 0) ∧
    (onFrame .l4 34 v20).parserKey = some (.layer4 0) ∧ (onFrame .idle 0 v20).parserKey = none ∧
    (onFrame .done 0 v20).parserKey = none ∧ (onFrame .l2 0 v20).inputs = [] := ⟨rfl, rfl, rfl, rfl, rfl, rfl⟩

/-- Both sides of the frame's end, for one byte and for sixteen. -/
theorem witness_MemReadIsBigEndianInsideTheFrame :
    (0 + 1 ≤ 1 ∧ 0 < 0 + 1) ∧ (38 + 16 ≤ 54 ∧ 53 < 38 + 16) := by decide

/-- Each operation answers a next state somewhere, so `exec i s = .next t` can be met for each. -/
theorem witness_NoOperationWritesTheFrame :
    (∀ l, isNext (exec (.cmdSummarize l) (onFrame .idle 0 v20)) = true) ∧
    (∀ l, isNext (exec (.cmdProcess l) (onFrame .idle 0 v20)) = true) ∧
    isNext (exec .l2Eth (onFrame .l2 0 v20)) = true ∧ isNext (exec .l3Ipv4 (onFrame .l3 14 v20)) = true ∧
    isNext (exec .l3Ipv6 (onFrame .l3 14 v32)) = true ∧ isNext (exec .l3Arp (onFrame .l3 14 v36)) = true ∧
    (∀ k, isNext (exec (.l3Other k) (onFrame .l3 14 v4)) = true) ∧ isNext (exec .l4Tcp (onFrame .l4 34 v20)) = true ∧
    isNext (exec .l4Udp (onFrame .l4 34 v22)) = true ∧ (∀ k, isNext (exec (.l4Other k) (onFrame .l4 34 v12)) = true) :=
  ⟨fun _ => rfl, fun _ => rfl, by decide, by decide, by decide, by decide, fun _ => rfl, by decide, by decide,
    fun _ => rfl⟩

/-- The shortest and the longest IPv4 header. -/
theorem witness_Ipv4HeaderReadsBack :
    (Ipv4Line.mk 1 2 6 40 5 4 0 0 0 64 0 []).wellFormed = true ∧ (5 : BitVec 4).toNat = 5 ∧
    (Ipv4Line.mk 1 2 6 40 15 4 0 0 0 64 0 (List.replicate 40 0)).wellFormed = true ∧ 5 ≤ (15 : BitVec 4).toNat := by decide

theorem witness_AcceptedCommandStartsADecode (l : Label) :
    ((Instr.cmdSummarize l, Mode.summarize) = (Instr.cmdSummarize l, Mode.summarize) ∧
      (Instr.cmdProcess l, Mode.process) = (Instr.cmdProcess l, Mode.process)) ∧
    (onFrame .idle 0 v20).ps = .idle ∧ (onFrame .done 0 v20).ps = .done ∧
    ¬ ((onFrame .l4 34 v20).ps = .idle ∨ (onFrame .l4 34 v20).ps = .done) := ⟨⟨rfl, rfl⟩, rfl, rfl, by decide⟩

theorem witness_CommandWhileBusyIsIgnored :
    (onFrame .l2 0 v20).ps = .l2 ∧ (onFrame .l3 14 v20).ps = .l3 ∧ (onFrame .l4 34 v20).ps = .l4 := by decide

/-- 14 and 13 bytes. -/
theorem witness_EthernetOperationResult :
    14 ≤ (onFrame .l2 0 v4).frameLength ∧ (onFrame .l2 0 v2).frameLength < 14 := by decide

/-- V20 meets the three conditions; V13 fails the second, V20 cut to 33 bytes the first, V18 cut to 73 the third. -/
theorem witness_Ipv4OperationResult :
    (20 ≤ (onFrame .l3 14 v20).frameLength - 14 ∧ 5 ≤ (ihlOf ((onFrame .l3 14 v20).fb.field 14 1)).toNat ∧
      4 * (ihlOf ((onFrame .l3 14 v20).fb.field 14 1)).toNat ≤ (onFrame .l3 14 v20).frameLength - 14) ∧
    ¬ 20 ≤ (onFrame .l3 14 (v20.take 33)).frameLength - 14 ∧
    ¬ 5 ≤ (ihlOf ((onFrame .l3 14 v13).fb.field 14 1)).toNat ∧
    ¬ 4 * (ihlOf ((onFrame .l3 14 (v18.take 73)).fb.field 14 1)).toNat ≤ (onFrame .l3 14 (v18.take 73)).frameLength - 14 := by
  decide

/-- 40 and 39 bytes. -/
theorem witness_Ipv6OperationResult :
    40 ≤ (onFrame .l3 14 (v32.take 54)).frameLength - 14 ∧ (onFrame .l3 14 (v32.take 53)).frameLength - 14 < 40 := by decide

/-- 28 and 27 bytes. -/
theorem witness_ArpOperationResult :
    28 ≤ (onFrame .l3 14 v36).frameLength - 14 ∧ (onFrame .l3 14 v34).frameLength - 14 < 28 := by decide

/-- 20 and 19 bytes. -/
theorem witness_TcpOperationResult :
    20 ≤ (onFrame .l4 34 v20).frameLength - 34 ∧ (onFrame .l4 34 (v20.take 53)).frameLength - 34 < 20 := by decide

/-- 8 and 7 bytes. -/
theorem witness_UdpOperationResult :
    8 ≤ (onFrame .l4 34 v22).frameLength - 34 ∧ (onFrame .l4 34 v21).frameLength - 34 < 8 := by decide

/-- The selection clause of the operation statements: a state, with no input left, for each operation. -/
theorem witness_OperationsAreSelected :
    (onFrame .l2 0 v20).ps = .l2 ∧ (onFrame .l2 0 v20).inputs = [] ∧
    (State.reset.withInstr .l3Ipv4).eth.etherType = 0x0800 ∧ (State.reset.withInstr .l3Ipv6).eth.etherType = 0x86DD ∧
    (State.reset.withInstr .l3Arp).eth.etherType = 0x0806 ∧ (State.reset.withInstr .l4Tcp).l4key = 6 ∧
    (State.reset.withInstr .l4Udp).l4key = 17 ∧ (State.reset.withInstr .l3Arp).ps = .l3 ∧
    (State.reset.withInstr .l4Udp).ps = .l4 ∧ ({ State.reset.withInstr .l4Udp with inputs := [] } : State).inputs = [] := by
  decide

/-- Default keys next to the listed ones and at the ends of their range. -/
theorem witness_UnlistedKeys :
    [(0 : BitVec 16), 0x07FF, 0x0801, 0x0805, 0x0807, 0x86DC, 0x86DE, 0xFFFF].all
      (fun k => k != 0x0800 && k != 0x86DD && k != 0x0806) = true ∧
    [(0 : BitVec 8), 5, 7, 16, 18, 255].all (fun k => k != 6 && k != 17) = true ∧
    (∀ k, (State.reset.withInstr (.l3Other k)).eth.etherType = k ∧ (State.reset.withInstr (.l3Other k)).ps = .l3) ∧
    (∀ k, (State.reset.withInstr (.l4Other k)).l4key = k ∧ (State.reset.withInstr (.l4Other k)).ps = .l4) :=
  ⟨by decide, by decide, fun _ => ⟨rfl, rfl⟩, fun _ => ⟨rfl, rfl⟩⟩

theorem witness_ResolverLeavesUpperLayers :
    isNext (exec .l4Tcp (onFrame .l4 34 v20)) = true ∧ isNext (exec .l4Udp (onFrame .l4 34 v20)) = true ∧
    isNext (exec (.l4Other 1) (onFrame .l4 34 v20)) = true := by decide

/-- An operation that ends the decode, in both modes, and one that does not. -/
theorem witness_OneReportPerEndedDecode :
    (onFrame .l2 0 v2).parserKey = some .layer2 ∧
    (after (exec (decode .layer2) (onFrame .l2 0 v2))).map (·.ps) = some .done ∧
    (after (exec (decode .layer2) { onFrame .l2 0 v2 with mode := .process })).map (·.ps) = some .done ∧
    (after (exec (decode .layer2) (onFrame .l2 0 v20))).map (·.ps) = some .l3 := by decide

theorem witness_ReportHoldsWhatTheStatusesMakePresent :
    State.reset.sum.kind = .na ∧ ({ State.reset with sum := ⟨.v4, 1, 2⟩ } : State).sum.kind = .v4 ∧
    ({ State.reset with sum := ⟨.v6, 1, 2⟩ } : State).sum.kind = .v6 := by decide

/-- A state for each row of R127, with the conditions of the views both met and not met: V20 and V32, and V13 and V2. -/
theorem witness_NextStateTable :
    ((onFrame .l2 0 v2).inputs = [] ∧ (onFrame .l2 0 v2).frameLength < 14 ∧ 14 ≤ (onFrame .l2 0 v4).frameLength) ∧
    (20 ≤ (onFrame .l3 14 v20).frameLength - 14 ∧ 5 ≤ (ihlOf ((onFrame .l3 14 v20).fb.field 14 1)).toNat ∧
      4 * (ihlOf ((onFrame .l3 14 v20).fb.field 14 1)).toNat ≤ (onFrame .l3 14 v20).frameLength - 14) ∧
    ¬ 5 ≤ (ihlOf ((onFrame .l3 14 v13).fb.field 14 1)).toNat ∧
    40 ≤ (onFrame .l3 14 v32).frameLength - 14 ∧ ¬ 40 ≤ (onFrame .l3 14 v2).frameLength - 14 ∧
    ({ onFrame .l3 14 v36 with eth := ⟨0, 0, 0x0806⟩ } : State).eth.etherType ≠ 0x0800 ∧
    (onFrame .l4 34 v20).ps = .l4 ∧ (onFrame .idle 0 v20).ps = .idle ∧ (onFrame .done 0 v20).ps = .done := by decide

theorem witness_BusyParserMovesForward :
    (onFrame .l2 0 v20).ps.busy = true ∧ (onFrame .l3 14 v20).ps.busy = true ∧ (onFrame .l4 34 v20).ps.busy = true ∧
    (onFrame .l4 34 v20).inputs = [] := by decide

/-- A rejected frame, and one of each length of the chain. -/
theorem witness_DecodeEndsWithinThreeSteps :
    (onFrame .l2 0 v2).ps = .l2 ∧ (onFrame .l2 0 v2).inputs = [] ∧ (onFrame .l2 0 v2).frameLength < 14 ∧
    14 ≤ (onFrame .l2 0 v36).frameLength ∧ 14 ≤ (onFrame .l2 0 v20).frameLength := by decide

theorem witness_RunComputesDecode : (onFrame .idle 0 v20).ps = .idle ∧ (onFrame .done 34 v20).ps = .done := by decide

/-- Two instances in different states, in their other registers and beyond the frame's end too, with the same frame. -/
theorem witness_ResultDependsOnTheFrameAlone :
    let s₁ := onFrame .idle 0 v2
    let s₂ : State := { onFrame .done 34 v20 with flen := 13 }
    s₁.ps = .idle ∧ s₂.ps = .done ∧ s₁.frameLength = s₂.frameLength ∧
      (∀ a, a < s₁.frameLength → s₁.fb.read a = s₂.fb.read a) ∧ s₁.fb.written 14 ≠ s₂.fb.written 14 := by decide

/-- Frames of 94 and 95 bytes with the same first 94 bytes. -/
theorem witness_LongFramesDecodeAsTheirPrefix :
    let s₁ := onFrame .idle 0 v18
    let s₂ : State := { onFrame .done 0 v18 with flen := 95, fb := (Memory.blank.load 0 v18).write 94 1 }
    (s₁.ps = .idle ∧ s₂.ps = .done ∧ 94 ≤ s₁.frameLength ∧ 94 ≤ s₂.frameLength ∧ s₁.frameLength ≠ s₂.frameLength) ∧
      ∀ a, a ≤ 77 → s₁.fb.read a = s₂.fb.read a := by
  refine ⟨by decide, fun a ha => ?_⟩
  show _ = Memory.read (Memory.write _ 94 1) a
  rw [Memory.read_write, if_neg (by omega)]
  rfl

/-- The empty frame, and a frame that fills `FB`. -/
theorem witness_LaunchedFrameIsDecoded :
    State.reset.ps = .idle ∧ ([] : List Byte).length ≤ Config.fbMax ∧
    (List.replicate Config.fbMax (0 : Byte)).length = Config.fbMax := by simp [State.reset]

/-- A frame for each outcome. -/
theorem witness_SummaryOfEveryOutcome :
    (decodeFrame (Memory.blank.load 0 v2) 13).l2 = .rejected ∧ (decodeFrame (Memory.blank.load 0 v4) 14).l3 = .unsupported ∧
    (decodeFrame (Memory.blank.load 0 v13) 54).l3 = .malformed ∧ (decodeFrame (Memory.blank.load 0 v12) 34).l3 = .ipv4 ∧
    (decodeFrame (Memory.blank.load 0 v32) 62).l3 = .ipv6 ∧ (decodeFrame (Memory.blank.load 0 v36) 42).l3 = .arp := by decide

theorem witness_EthernetIpv4TcpFrameDecodes :
    (EthLine.mk 1 2 0x0800).etherType = 0x0800 ∧ (Ipv4Line.mk 1 2 6 40 5 4 0 0 0 64 0 []).wellFormed = true ∧
    5 ≤ (Ipv4Line.mk 1 2 6 40 5 4 0 0 0 64 0 []).ihl.toNat ∧ (Ipv4Line.mk 1 2 6 40 5 4 0 0 0 64 0 []).proto = 6 := by
  decide

/-- A state that meets the invariant, of a decode under way: the empty frame in `L2`, with a step that answers a next state. -/
theorem witness_EveryStepKeepsTheInvariant :
    (onFrame .l2 0 []).Inv ∧ isNext (step (onFrame .l2 0 [])) = true := by
  refine ⟨⟨⟨?_, ?_, ?_, ?_, ?_, ?_, ?_, ?_, ?_, ?_, ?_, ?_⟩, ?_, ?_, ?_, ?_, ?_, ?_, ?_, ?_, ?_, ?_, ?_⟩, rfl⟩ <;>
    simp [onFrame, State.reset, Memory.load, State.keysAgree, State.resolverAgrees, State.summaryAgrees, SumRegs.sentinel,
      Memory.blank, Memory.wf]

/-- One register of every group is readable somewhere, and right after reset `PS` and `MODE` are and nothing else. -/
theorem witness_RegisterReads :
    ({ State.reset with l2Status := .ok } : State).regValid .ethDst = true ∧
    ({ State.reset with ps := .done } : State).regValid .sumSrc = true ∧
    (onFrame .idle 0 v4).regValid .flen = true ∧ State.reset.regValid .ps = true ∧ State.reset.regValid .mode = true ∧
    State.reset.regValid .flen = false ∧ State.reset.regValid .ethDst = false ∧ State.reset.regValid .label = false := by
  decide

/-- A length and a byte that the host has written, and a machine where it has written neither. -/
theorem witness_FrameIsWhatTheHostHasWritten :
    ((onFrame .idle 0 v4).flenWritten = true ∧ State.reset.flenWritten = false ∧ State.reset.ps.busy = false ∧
      (onFrame .idle 0 v4).fb.written 12 = some 0x12) ∧ Config.fbMax ≤ Config.fbMax := ⟨by decide, Nat.le_refl _⟩

/-- Both sides of `FB_MAX`, in a waiting and in a busy parser. -/
theorem witness_HostRegisterWrites :
    Reg.ps ≠ .flen ∧ (onFrame .idle 0 v20).ps.busy = false ∧ (onFrame .l3 14 v20).ps.busy = true ∧
    Config.fbMax ≤ Config.fbMax ∧ Config.fbMax < Config.fbMax + 1 :=
  ⟨by decide, by decide, by decide, Nat.le_refl _, Nat.lt_succ_self _⟩

/-- The last byte of `FB` in a waiting parser, the first byte at and below the frame's end in a busy one, and the end of `FB`. -/
theorem witness_HostFrameWrites :
    (onFrame .l3 14 v4).fb.wf ∧ (onFrame .idle 0 v4).ps.busy = false ∧ Config.fbMax - 1 < Config.fbMax ∧
    ((onFrame .l3 14 v4).ps.busy = true ∧ (onFrame .l3 14 v4).frameLength ≤ 14 ∧ 13 < (onFrame .l3 14 v4).frameLength ∧
      14 < Config.fbMax) ∧ Config.fbMax ≤ Config.fbMax :=
  ⟨Memory.wf_load Memory.wf_blank 0 v4, by decide, by unfold Config.fbMax; omega,
    ⟨by decide, by decide, by decide, by unfold Config.fbMax; omega⟩, Nat.le_refl _⟩

/-- The last written byte, the first one that is not, and the end of `FB`. -/
theorem witness_HostFrameReads :
    (onFrame .l3 14 v4).fb.written 13 = some 0x34 ∧ (onFrame .l3 14 v4).fb.written 14 = none ∧ 14 < Config.fbMax ∧
    Config.fbMax ≤ Config.fbMax := ⟨by decide, by decide, by unfold Config.fbMax; omega, Nat.le_refl _⟩

theorem witness_SinkTakesTheOldestRecord :
    ({ State.reset with reportQ := [State.reset.report] } : State).reportQ = State.reset.report :: [] ∧
    State.reset.reportQ = [] := ⟨rfl, rfl⟩

theorem witness_DoneOutFollowsParserState (l : Label) :
    isNext (exec (decode (.command 0 l 0)) (onFrame .done 0 v20)) = true ∧
    isNext (exec (decode (.command 1 l 0)) (onFrame .l3 14 v20)) = true ∧ (onFrame .done 0 v20).doneOut = true :=
  ⟨rfl, rfl, rfl⟩

/-- A broken duty of each kind, at the boundary of its range. -/
theorem witness_StepStopsExactlyOnABrokenDuty :
    isNext (step { onFrame .l3 14 v4 with inputs := [.host .readCmd] }) = false ∧
    isNext (step { onFrame .l3 14 v4 with inputs := [.host (.writeReg .flen 14)] }) = false ∧
    isNext (step { onFrame .l3 14 v4 with inputs := [.tick, .host .readCmd] }) = true ∧
    Config.fbMax ≤ Config.fbMax ∧ 13 < (onFrame .l3 14 v4).frameLength ∧ Config.fbMax < Config.fbMax + 1 :=
  ⟨rfl, rfl, rfl, Nat.le_refl _, by decide, Nat.lt_succ_self _⟩

/-- A host that commands a decode, reads the parser state while it runs and takes a record, with a reset at the end. -/
theorem witness_DutifulHostNeverStopsTheMachine (l : Label) :
    HostKeepsDuties { onFrame .idle 0 v2 with
      inputs := [.host (.writeCmd 1 l 0), .host (.readReg .ps), .tick, .sink, .reset] } := by
  intro k t h
  match k with
  | 0 => cases h; rfl
  | 1 => cases h; rfl
  | 2 => cases h; rfl
  | 3 => cases h; rfl
  | 4 => cases h; rfl
  | k + 5 =>
    have hw : ∀ j, run j (assertReset { onFrame .idle 0 v2 with freeCount := 1, hostData := .value (.num 1) }) =
        .next (assertReset { onFrame .idle 0 v2 with freeCount := 1, hostData := .value (.num 1) }) := by
      intro j
      induction j with
      | zero => rfl
      | succ j ih => exact ih
    have h' := (hw k).symm.trans h
    cases h'
    rfl

/-- Any renaming where no reset comes, one that keeps the label of reset where one does, and a step that answers each of the
three outcomes. -/
theorem witness_LabelsAreNeverInspected :
    (onFrame .l2 0 v2).inputs.head? ≠ some .reset ∧ (fun _ : Label => Label.first) .first = .first ∧
    isNext (step (onFrame .l2 0 v2)) = true ∧
    step { State.reset with inputs := [.host .readCmd] } = .fault .writeOnlyRegisterRead ∧
    step { onFrame .l2 0 v2 with inputs := [.host (.writeReg .flen 0)] } = .refused .frameWriteWhileBusy :=
  ⟨by decide, rfl, rfl, rfl, rfl⟩

theorem witness_TextIsInjective : renderV4 0x01020304 = renderV4 0x01020304 ∧ renderV6 1 = renderV6 1 := ⟨rfl, rfl⟩

/-- One choice of the open text parameters: the marker `N`, and an IPv6 text of one character per bit. -/
def someText : TextParams where
  naText := ['N']
  v6Text a := (List.range 128).map fun i => if a.getLsbD i then '1' else '0'

theorem witness_SentinelTextIsNoAddress : someText.legal := by
  refine ⟨by decide, fun a h => ?_, fun a h => ?_, fun a b h => ?_⟩
  · have hm : '.' ∈ someText.naText := by rw [h]; simp [renderV4, joinText]
    exact absurd hm (by decide)
  · have hl := congrArg List.length h
    simp [someText] at hl
  · refine BitVec.eq_of_getLsbD_eq fun i hi => ?_
    have hc := congrArg (fun l => l[i]?) h
    simp only [someText, List.getElem?_map, List.getElem?_range hi, Option.map_some, Option.some.injEq] at hc
    cases ha : a.getLsbD i <;> cases hb : b.getLsbD i <;> simp [ha, hb] at hc ⊢

/-- Two instances, moved in turn; the second one's sink takes a record. -/
theorem witness_InstancesRunAsIfAlone :
    (∃ z, System.run ⟨[onFrame .l2 0 v2, State.reset], []⟩ [0, 1, 0] = some z) ∧
    (⟨[onFrame .l2 0 v2, State.reset], []⟩ : System).instances[1]? = some State.reset := ⟨⟨_, rfl⟩, rfl⟩

/-- A step of the sink on a queue with a record, one on an empty queue, and a step that is not the sink's. -/
theorem witness_SinkKeepsRecordsApart :
    (∃ z, System.stepOf 1 ⟨[State.reset, { State.reset with reportQ := [State.reset.report], inputs := [.sink] }], []⟩ =
      some z) ∧
    (∃ z, System.stepOf 0 ⟨[{ State.reset with inputs := [.sink] }], []⟩ = some z) ∧
    ∃ z, System.stepOf 0 ⟨[{ State.reset with inputs := [.tick] }], []⟩ = some z := ⟨⟨_, rfl⟩, ⟨_, rfl⟩, ⟨_, rfl⟩⟩

/-- A decode that appends a record, and the sink that takes it. -/
theorem witness_RecordsReachTheSinkInOrder :
    (∃ z, System.run ⟨[{ onFrame .l2 0 v2 with mode := .process, inputs := [.tick, .sink] }], []⟩ [0, 0] = some z) ∧
    .reset ∉ ({ onFrame .l2 0 v2 with inputs := [.tick, .sink] } : State).inputs := ⟨⟨_, rfl⟩, by decide⟩

end Sys2Proof.Tests
end

/-! ## Labels are copied and never inspected (O53)

Renaming the labels is carried through the layers a step is made of: the shared updates, the operations, the host's and the
sink's accesses, the choice of the turn, and the step itself. Each layer has one commuting lemma. -/

namespace Sys2Proof

/-! ### Renaming in keys and operations -/

/-- The key with the label of a `CMD` write renamed; no other key has one. -/
def Key.relabel (f : Label → Label) : Key → Key
  | .command mode label above => .command mode (f label) above
  | .layer2 => .layer2
  | .layer3 k => .layer3 k
  | .layer4 k => .layer4 k

/-- The operation with the label of a command renamed; no other operation has one. -/
def Instr.relabel (f : Label → Label) : Instr → Instr
  | .cmdSummarize label => .cmdSummarize (f label)
  | .cmdProcess label => .cmdProcess (f label)
  | .l2Eth => .l2Eth
  | .l3Ipv4 => .l3Ipv4
  | .l3Ipv6 => .l3Ipv6
  | .l3Arp => .l3Arp
  | .l3Other k => .l3Other k
  | .l4Tcp => .l4Tcp
  | .l4Udp => .l4Udp
  | .l4Other k => .l4Other k

theorem decodeCommand_relabel (f : Label → Label) (mode : BitVec 1) (label : Label) :
    decodeCommand mode (f label) = (decodeCommand mode label).relabel f := by
  unfold decodeCommand
  split_ifs <;> rfl

theorem decodeLayer3_relabel (f : Label → Label) (k : BitVec 16) : (decodeLayer3 k).relabel f = decodeLayer3 k := by
  unfold decodeLayer3
  split_ifs <;> rfl

theorem decodeLayer4_relabel (f : Label → Label) (k : BitVec 8) : (decodeLayer4 k).relabel f = decodeLayer4 k := by
  unfold decodeLayer4
  split_ifs <;> rfl

/-- The decoder hands a label on to the operation it selects. -/
theorem decode_relabel (f : Label → Label) (k : Key) : decode (k.relabel f) = (decode k).relabel f := by
  cases k with
  | command mode label above => exact decodeCommand_relabel f mode label
  | layer2 => rfl
  | layer3 k => exact (decodeLayer3_relabel f k).symm
  | layer4 k => exact (decodeLayer4_relabel f k).symm

namespace Machine

/-! ### What a renaming leaves as it is -/

@[simp] theorem State.relabel_fb (f : Label → Label) (s : State) : (s.relabel f).fb = s.fb := rfl

@[simp] theorem State.relabel_ps (f : Label → Label) (s : State) : (s.relabel f).ps = s.ps := rfl

@[simp] theorem State.relabel_off (f : Label → Label) (s : State) : (s.relabel f).off = s.off := rfl

@[simp] theorem State.relabel_mode (f : Label → Label) (s : State) : (s.relabel f).mode = s.mode := rfl

@[simp] theorem State.relabel_inputs (f : Label → Label) (s : State) :
    (s.relabel f).inputs = s.inputs.map (Input.relabel f) := rfl

@[simp] theorem State.relabel_frameLength (f : Label → Label) (s : State) :
    (s.relabel f).frameLength = s.frameLength := rfl

@[simp] theorem State.relabel_parserKey (f : Label → Label) (s : State) : (s.relabel f).parserKey = s.parserKey := rfl

@[simp] theorem State.relabel_regValid (f : Label → Label) (s : State) (r : Reg) :
    (s.relabel f).regValid r = s.regValid r := by
  cases r <;> rfl

/-- The key the parser dispatches on has no label. -/
theorem State.parserKey_noLabel (f : Label → Label) {s : State} {k : Key} (h : s.parserKey = some k) :
    k.relabel f = k := by
  unfold State.parserKey at h
  split at h <;> cases h <;> rfl

/-! ### The shared updates -/

@[simp] theorem State.report_relabel (f : Label → Label) (s : State) :
    (s.relabel f).report = s.report.relabel f := rfl

theorem enterDone_relabel (f : Label → Label) (s : State) : enterDone (s.relabel f) = (enterDone s).relabel f := by
  unfold enterDone
  rw [State.relabel_mode]
  cases s.mode with
  | summarize => rfl
  | process => simp only [State.relabel, List.map_append, List.map_singleton, ← State.report_relabel]

theorem startCommand_relabel (f : Label → Label) (m : Mode) (l : Label) (s : State) :
    startCommand m (f l) (s.relabel f) = (startCommand m l s).relabel f := rfl

theorem acceptCommand_relabel (f : Label → Label) (m : Mode) (l : Label) (s : State) :
    acceptCommand m (f l) (s.relabel f) = (acceptCommand m l s).relabel f := by
  cases h : s.ps.busy with
  | true => rw [acceptCommand_busy h, acceptCommand_busy (s := s.relabel f) h]
  | false => rw [acceptCommand_waiting h, acceptCommand_waiting (s := s.relabel f) h, startCommand_relabel]

theorem Event.record_relabel (f : Label → Label) (e : Event) (s : State) :
    e.record (s.relabel f) = (e.record s).relabel f := by
  cases e <;> rfl

@[simp] theorem raiseEvent_relabel (f : Label → Label) (e : Event) (s : State) :
    raiseEvent e (s.relabel f) = (raiseEvent e s).relabel f := by
  rw [raiseEvent, Event.record_relabel, enterDone_relabel, raiseEvent]

@[simp] theorem loadEth_relabel (f : Label → Label) (h : EthRegs) (p : Nat) (s : State) :
    loadEth h p (s.relabel f) = (loadEth h p s).relabel f := rfl

@[simp] theorem loadIpv4_relabel (f : Label → Label) (h : Ip4Regs) (p : Nat) (s : State) :
    loadIpv4 h p (s.relabel f) = (loadIpv4 h p s).relabel f := rfl

@[simp] theorem loadIpv6_relabel (f : Label → Label) (h : Ip6Regs) (p : Nat) (s : State) :
    loadIpv6 h p (s.relabel f) = (loadIpv6 h p s).relabel f := rfl

@[simp] theorem loadArp_relabel (f : Label → Label) (h : ArpRegs) (s : State) :
    loadArp h (s.relabel f) = (loadArp h s).relabel f :=
  enterDone_relabel f { s with arp := h, l3Status := .arp, sum := .ofV4 h.spa h.tpa }

@[simp] theorem loadPorts_relabel (f : Label → Label) (status : L4Status) (h : PortRegs) (s : State) :
    loadPorts status h (s.relabel f) = (loadPorts status h s).relabel f :=
  enterDone_relabel f { s with ports := h, l4Status := status }

/-! ### The operations -/

/-- The outcome with the labels of the next state renamed; a stop carries none. -/
def relabelOutcome (f : Label → Label) : Host.Outcome State Fault Refusal → Host.Outcome State Fault Refusal
  | .next s => .next (s.relabel f)
  | .fault e => .fault e
  | .refused e => .refused e

@[simp] theorem relabelOutcome_next (f : Label → Label) (s : State) :
    relabelOutcome f (.next s) = .next (s.relabel f) := rfl

/-- Every operation commutes with a renaming: the commands latch their label, and no other operation has one. -/
theorem exec_relabel (f : Label → Label) (i : Instr) (s : State) :
    exec (i.relabel f) (s.relabel f) = relabelOutcome f (exec i s) := by
  cases i with
  | cmdSummarize l => simp only [Instr.relabel, exec_cmdSummarize, acceptCommand_relabel, relabelOutcome_next]
  | cmdProcess l => simp only [Instr.relabel, exec_cmdProcess, acceptCommand_relabel, relabelOutcome_next]
  | l2Eth =>
    have hrejected := raiseEvent_relabel f .rejected { s with off := 0 }
    simp only [Instr.relabel, exec_l2Eth, relabelOutcome_next, apply_ite (State.relabel f), ← hrejected,
      loadEth_relabel]
    rfl
  | l3Ipv4 => simp [Instr.relabel, exec_l3Ipv4, apply_ite (State.relabel f)]
  | l3Ipv6 => simp [Instr.relabel, exec_l3Ipv6, apply_ite (State.relabel f)]
  | l3Arp => simp [Instr.relabel, exec_l3Arp, apply_ite (State.relabel f)]
  | l3Other k => simp [Instr.relabel, exec_l3Other]
  | l4Tcp => simp [Instr.relabel, exec_l4Tcp, apply_ite (State.relabel f)]
  | l4Udp => simp [Instr.relabel, exec_l4Udp, apply_ite (State.relabel f)]
  | l4Other k => simp [Instr.relabel, exec_l4Other]

/-! ### The host, the sink and reset -/

/-- Only a read of `LABEL` shows a label. -/
theorem State.regContent_relabel (f : Label → Label) (s : State) (r : Reg) :
    (s.relabel f).regContent r = (s.regContent r).relabel f := by
  cases r <;> rfl

theorem hostReadReg_relabel (f : Label → Label) (r : Reg) (s : State) :
    hostReadReg r (s.relabel f) = relabelOutcome f (hostReadReg r s) := by
  unfold hostReadReg
  rw [State.relabel_regValid, State.regContent_relabel]
  cases s.regValid r <;> rfl

theorem hostWriteLength_relabel (f : Label → Label) (n : Nat) (s : State) :
    hostWriteLength n (s.relabel f) = relabelOutcome f (hostWriteLength n s) := by
  unfold hostWriteLength
  rw [State.relabel_ps]
  split_ifs <;> rfl

theorem hostWriteReg_relabel (f : Label → Label) (r : Reg) (v : Nat) (s : State) :
    hostWriteReg r v (s.relabel f) = relabelOutcome f (hostWriteReg r v s) := by
  unfold hostWriteReg
  split_ifs
  · exact hostWriteLength_relabel f v s
  · rfl

theorem hostWriteFb_relabel (f : Label → Label) (a : Nat) (b : Byte) (s : State) :
    hostWriteFb a b (s.relabel f) = relabelOutcome f (hostWriteFb a b s) := by
  unfold hostWriteFb
  rw [State.relabel_ps, State.relabel_frameLength]
  split_ifs <;> rfl

theorem hostReadFb_relabel (f : Label → Label) (a : Nat) (s : State) :
    hostReadFb a (s.relabel f) = relabelOutcome f (hostReadFb a s) := by
  unfold hostReadFb
  rw [State.relabel_fb]
  split_ifs
  · rfl
  · cases s.fb.written a <;> rfl

theorem sinkTake_relabel (f : Label → Label) (s : State) : sinkTake (s.relabel f) = (sinkTake s).relabel f := by
  simp [sinkTake, State.relabel, List.map_tail]

/-- Reset puts the model's own label into `LABEL` (log 5), so the renaming has to keep it. -/
theorem assertReset_relabel {f : Label → Label} (hf : f .first = .first) (s : State) :
    assertReset (s.relabel f) = (assertReset s).relabel f := by
  simp [assertReset, State.relabel, State.reset, hf]

/-! ### The turn and the step -/

/-- The turn with every label renamed, in its key and in its state or outcome. -/
def Turn.relabel (f : Label → Label) : Turn → Turn
  | .run k s => .run (k.relabel f) (s.relabel f)
  | .other o => .other (relabelOutcome f o)

theorem parserTurn_relabel (f : Label → Label) (s : State) : parserTurn (s.relabel f) = (parserTurn s).relabel f := by
  unfold parserTurn
  rw [State.relabel_parserKey]
  cases h : s.parserKey with
  | none => rfl
  | some k => simp only [Turn.relabel, State.parserKey_noLabel f h]

theorem hostTurn_relabel (f : Label → Label) (a : HostAction) (s : State) :
    hostTurn (a.relabel f) (s.relabel f) = (hostTurn a s).relabel f := by
  cases a with
  | writeFb offset byte => exact congrArg Turn.other (hostWriteFb_relabel f offset byte s)
  | readFb offset => exact congrArg Turn.other (hostReadFb_relabel f offset s)
  | writeCmd mode label above => rfl
  | readCmd => rfl
  | writeReg r v => exact congrArg Turn.other (hostWriteReg_relabel f r v s)
  | readReg r => exact congrArg Turn.other (hostReadReg_relabel f r s)

/-- Whose turn it is does not depend on the labels. -/
theorem State.turn_relabel (f : Label → Label) (s : State)
    (hreset : s.inputs.head? ≠ some .reset ∨ f .first = .first) :
    (s.relabel f).turn = s.turn.relabel f := by
  unfold State.turn
  rw [State.relabel_inputs]
  cases hin : s.inputs with
  | nil => exact parserTurn_relabel f s
  | cons i rest =>
    cases i with
    | tick => exact parserTurn_relabel f { s with inputs := rest }
    | host a => exact hostTurn_relabel f a { s with inputs := rest }
    | sink => exact congrArg (fun t => Turn.other (.next t)) (sinkTake_relabel f { s with inputs := rest })
    | reset =>
      have hf : f .first = .first := hreset.resolve_left (by simp [hin])
      exact congrArg (fun t => Turn.other (.next t)) (assertReset_relabel hf { s with inputs := rest })

/-- One equation for the three outcomes: the step of the renamed state is the renamed outcome. -/
theorem step_relabel (f : Label → Label) (s : State) (hreset : s.inputs.head? ≠ some .reset ∨ f .first = .first) :
    step (s.relabel f) = relabelOutcome f (step s) := by
  unfold step
  rw [State.turn_relabel f s hreset]
  cases s.turn with
  | run k t => simp only [Turn.relabel, decode_relabel, exec_relabel]
  | other o => rfl

/-- Settles O53: each outcome of the step is read off `step_relabel`. -/
theorem labelsAreNeverInspected : Obligations.LabelsAreNeverInspected := by
  intro f s hreset
  have hstep := step_relabel f s hreset
  refine ⟨fun t h => ?_, fun e h => ?_, fun e h => ?_⟩ <;> rw [hstep, h] <;> rfl

end Machine
end Sys2Proof

/-! ## The host's accesses, the sink and reset: what each answers, once

Every host access has one equation per case (R11, R12, R28, R29, R40); the statements about a host's step cite these and unfold no
access again. -/

section
namespace Sys2Proof.Machine

/-! ### The statuses with a payload and with ports -/

theorem L3Status.hasPayload_iff (c : L3Status) : c.hasPayload = true ↔ c = .ipv4 ∨ c = .ipv6 := by
  cases c <;> decide

theorem L4Status.hasPorts_iff (c : L4Status) : c.hasPorts = true ↔ c = .tcp ∨ c = .udp := by
  cases c <;> decide

/-! ### Registers -/

theorem hostReadReg_of_invalid {s : State} {r : Reg} (h : s.regValid r = false) :
    hostReadReg r s = .next { s with hostData := .programFault } := by
  simp [hostReadReg, h]

theorem hostWriteReg_readOnly {r : Reg} (h : r ≠ .flen) (v : Nat) (s : State) : hostWriteReg r v s = .next s := by
  rw [hostWriteReg, if_neg h]

theorem hostWriteReg_flen (v : Nat) (s : State) : hostWriteReg .flen v s = hostWriteLength v s := rfl

theorem hostWriteLength_fits {s : State} {v : Nat} (hwait : s.ps.busy = false) (hv : v ≤ Config.fbMax) :
    hostWriteLength v s = .next { s with flen := v, flenWritten := true } := by
  simp [hostWriteLength, hwait, hv]

theorem hostWriteLength_tooLong {s : State} {v : Nat} (hwait : s.ps.busy = false) (hv : Config.fbMax < v) :
    hostWriteLength v s = .refused .lengthBeyondCapacity := by
  simp [hostWriteLength, hwait, hv]

theorem hostWriteLength_busy {s : State} (hbusy : s.ps.busy = true) (v : Nat) :
    hostWriteLength v s = .refused .frameWriteWhileBusy := by
  simp [hostWriteLength, hbusy]

/-! ### The frame buffer -/

theorem hostReadFb_outside {a : Nat} (ha : Config.fbMax ≤ a) (s : State) :
    hostReadFb a s = .fault .noSuchFrameByte := by
  rw [hostReadFb, if_pos ha]

theorem hostReadFb_written {s : State} {a : Nat} {b : Byte} (ha : a < Config.fbMax) (hb : s.fb.written a = some b) :
    hostReadFb a s = .next { s with hostData := .value (.num b.toNat) } := by
  rw [hostReadFb, if_neg (Nat.not_le.mpr ha), hb]

theorem hostReadFb_unwritten {s : State} {a : Nat} (ha : a < Config.fbMax) (hb : s.fb.written a = none) :
    hostReadFb a s = .next { s with hostData := .programFault } := by
  rw [hostReadFb, if_neg (Nat.not_le.mpr ha), hb]

theorem hostWriteFb_outside {a : Nat} (ha : Config.fbMax ≤ a) (b : Byte) (s : State) :
    hostWriteFb a b s = .fault .noSuchFrameByte := by
  rw [hostWriteFb, if_pos ha]

theorem hostWriteFb_busy {s : State} {a : Nat} (ha : a < Config.fbMax) (hbusy : s.ps.busy = true)
    (hlow : a < s.frameLength) (b : Byte) : hostWriteFb a b s = .refused .frameWriteWhileBusy := by
  simp [hostWriteFb, Nat.not_le.mpr ha, hbusy, hlow]

theorem hostWriteFb_kept {s : State} {a : Nat} (ha : a < Config.fbMax)
    (h : s.ps.busy = false ∨ s.frameLength ≤ a) (b : Byte) :
    hostWriteFb a b s = .next { s with fb := s.fb.write a b } := by
  have hharmless : ¬ (s.ps.busy = true ∧ a < s.frameLength) := by
    rintro ⟨hbusy, hlow⟩
    rcases h with h | h
    · simp [hbusy] at h
    · omega
  simp [hostWriteFb, Nat.not_le.mpr ha, hharmless]

/-! ### When an access stops -/

@[simp] theorem isNext_next (s : State) : isNext (.next s) = true := rfl

@[simp] theorem isNext_fault (f : Fault) : isNext (.fault f) = false := rfl

@[simp] theorem isNext_refused (r : Refusal) : isNext (.refused r) = false := rfl

@[simp] theorem isNext_hostReadReg (r : Reg) (s : State) : isNext (hostReadReg r s) = true := rfl

@[simp] theorem isNext_hostReadFb (a : Nat) (s : State) : isNext (hostReadFb a s) = decide (a < Config.fbMax) := by
  rcases Nat.lt_or_ge a Config.fbMax with h | h
  · simp [hostReadFb, Nat.not_le.mpr h, h]
  · rw [hostReadFb_outside h]
    simp [h]

@[simp] theorem isNext_hostWriteFb (a : Nat) (b : Byte) (s : State) : isNext (hostWriteFb a b s) =
    (decide (a < Config.fbMax) && (!s.ps.busy || decide (s.frameLength ≤ a))) := by
  unfold hostWriteFb
  split_ifs with hout hbusy
  · simp [hout]
  · simp_all
  · cases hb : s.ps.busy <;> simp_all

@[simp] theorem isNext_hostWriteReg (r : Reg) (v : Nat) (s : State) : isNext (hostWriteReg r v s) =
    (r != .flen || (!s.ps.busy && decide (v ≤ Config.fbMax))) := by
  by_cases hr : r = .flen
  · subst hr
    rw [hostWriteReg_flen, hostWriteLength]
    cases hb : s.ps.busy
    · split_ifs <;> simp_all
    · simp
  · rw [hostWriteReg_readOnly hr]
    simp [hr]

/-- No operation stops, in any state (R192). -/
theorem exec_eq_next (i : Instr) (s : State) : ∃ t, exec i s = .next t := by
  cases i with
  | cmdSummarize l => exact ⟨_, exec_cmdSummarize l s⟩
  | cmdProcess l => exact ⟨_, exec_cmdProcess l s⟩
  | l2Eth => exact ⟨_, exec_l2Eth s⟩
  | l3Ipv4 => exact ⟨_, exec_l3Ipv4 s⟩
  | l3Ipv6 => exact ⟨_, exec_l3Ipv6 s⟩
  | l3Arp => exact ⟨_, exec_l3Arp s⟩
  | l3Other k => exact ⟨_, exec_l3Other k s⟩
  | l4Tcp => exact ⟨_, exec_l4Tcp s⟩
  | l4Udp => exact ⟨_, exec_l4Udp s⟩
  | l4Other k => exact ⟨_, exec_l4Other k s⟩

@[simp] theorem isNext_exec (i : Instr) (s : State) : isNext (exec i s) = true := by
  obtain ⟨t, h⟩ := exec_eq_next i s
  rw [h, isNext_next]

/-- A step answers a next state exactly when the next input keeps the host's duties: the waiting parser, its operations, the
sink and reset never stop. -/
theorem isNext_step (s : State) : isNext (step s) = s.hostKeepsDuty := by
  rcases step_cases s with ⟨-, hin, hs⟩ | ⟨k, -, hin, hs⟩ | ⟨m, l, above, hin, hs⟩ | ⟨hin, hs⟩ | ⟨r, v, hin, hs⟩ |
    ⟨r, hin, hs⟩ | ⟨a, b, hin, hs⟩ | ⟨a, hin, hs⟩ | ⟨hin, hs⟩ | ⟨hin, hs⟩ <;>
    simp only [List.head?_eq_some_iff] at hin <;> rw [hs]
  case inl | inr.inl =>
    obtain hin | ⟨rest, hin⟩ := hin <;> simp [State.hostKeepsDuty, hin]
  all_goals obtain ⟨rest, hin⟩ := hin
  case inr.inr.inr.inr.inr.inr.inl =>
    rw [isNext_hostWriteFb, State.hostKeepsDuty, hin]
    rfl
  all_goals simp [State.hostKeepsDuty, hin]

/-- The broken duties, one by one. -/
theorem State.hostKeepsDuty_eq_false_iff (s : State) : s.hostKeepsDuty = false ↔
    (∃ rest, s.inputs = .host .readCmd :: rest) ∨
    (∃ a rest, s.inputs = .host (.readFb a) :: rest ∧ Config.fbMax ≤ a) ∨
    (∃ a b rest, s.inputs = .host (.writeFb a b) :: rest ∧ (Config.fbMax ≤ a ∨ s.ps.busy = true ∧ a < s.frameLength)) ∨
    (∃ n rest, s.inputs = .host (.writeReg .flen n) :: rest ∧ (s.ps.busy = true ∨ Config.fbMax < n)) := by
  unfold State.hostKeepsDuty
  split <;> rename_i hin
  case h_9 a b rest =>
    simp [hin, imp_iff_not_or]
  case h_10 r n rest =>
    by_cases hr : r = .flen <;> simp [hin, hr, imp_iff_not_or]
  all_goals simp [hin]

/-! ### Registers, frame, sink and reset: the statements -/

/-- Settles O40: the two tables are read off `Reg.number` and `Reg.width`. -/
theorem registerFileLayout : Obligations.RegisterFileLayout := rfl

/-- Settles O41: field registers show their field by definition, coded registers their code. -/
theorem registersShowTheirFields : Obligations.RegistersShowTheirFields := by
  intro s
  refine ⟨rfl, ?ps, rfl, rfl, ?mode, rfl, ?l2, ?l3, ?l4, ?kind, rfl, rfl, rfl, rfl, rfl, rfl, rfl, rfl, rfl, rfl, rfl, rfl,
    rfl, rfl, rfl, rfl, rfl, rfl, rfl, rfl, rfl, rfl, rfl⟩
  case ps => exact congrArg RegValue.num (by cases s.ps <;> rfl)
  case mode => exact congrArg RegValue.num (by cases s.mode <;> rfl)
  case l2 => exact congrArg RegValue.num (by cases s.l2Status <;> rfl)
  case l3 => exact congrArg RegValue.num (by cases s.l3Status <;> rfl)
  case l4 => exact congrArg RegValue.num (by cases s.l4Status <;> rfl)
  case kind => exact congrArg RegValue.num (by cases s.sum.kind <;> rfl)

/-- Settles O43: the rows are those of `State.regValid`; the two reads are `hostReadReg_of_invalid` and `step_readCmd`. -/
theorem invalidRegisterReadsGiveNoValue : Obligations.InvalidRegisterReadsGiveNoValue := by
  intro s rest
  refine ⟨?eth, ?ip4, ?ip6, ?arp, ?key, ?ports, ?done, ?label, Iff.rfl, rfl, rfl, ?read, step_readCmd s rest⟩
  case eth | ip4 | ip6 | arp | done | label => simp [State.regValid]
  case key => exact L3Status.hasPayload_iff s.l3Status
  case ports => simp [State.regValid, L4Status.hasPorts_iff]
  case read =>
    intro r hr
    have hr' : ({ s with inputs := rest } : State).regValid r = false := by cases r <;> exact hr
    rw [step_readReg, hostReadReg_of_invalid hr']

/-- Settles O44, from the laws of the frame's length and of reading after a write. -/
theorem frameIsWhatTheHostHasWritten : Obligations.FrameIsWhatTheHostHasWritten := by
  intro s v rest
  refine ⟨State.frameLength_written, fun hfree => ?_, fun hwait hv =>
    ⟨{ s with inputs := rest, flen := v, flenWritten := true }, ?_, rfl, rfl⟩, fun _ _ => Memory.read_of_written,
    fun a b => ⟨?_, fun x hx => ?_⟩⟩
  · rw [State.frameLength, hfree]
    exact Nat.le_of_lt_succ (Nat.mod_lt _ (Nat.succ_pos _))
  · rw [step_writeReg, hostWriteReg_flen, hostWriteLength_fits (s := { s with inputs := rest }) hwait hv]
  · rw [Memory.written_write, if_pos rfl]
  · rw [Memory.read_write, if_neg hx]

/-- Settles O45, one equation of the register write per case. -/
theorem hostRegisterWrites : Obligations.HostRegisterWrites := by
  intro s v rest
  refine ⟨fun r hr => ?_, fun hwait hv => ?_, fun hwait hv => ?_, fun hbusy => ?_⟩ <;> rw [step_writeReg]
  · exact hostWriteReg_readOnly hr v _
  · exact hostWriteLength_fits hwait hv
  · exact hostWriteLength_tooLong hwait hv
  · exact hostWriteLength_busy (s := { s with inputs := rest }) hbusy v

/-- Settles O46: the write that is kept is `Memory.write`, whose laws say what is read afterwards. -/
theorem hostFrameWrites : Obligations.HostFrameWrites := by
  intro s a b rest hwf
  refine ⟨fun ha h => ⟨{ s with inputs := rest, fb := s.fb.write a b }, ?_, rfl, Memory.wf_write hwf a b,
    Memory.written_write s.fb a b, Memory.read_write s.fb a b⟩, fun ha hbusy hlow => ?_, fun ha => ?_⟩ <;> rw [step_writeFb]
  · exact hostWriteFb_kept (s := { s with inputs := rest }) ha h b
  · exact hostWriteFb_busy (s := { s with inputs := rest }) ha hbusy hlow b
  · exact hostWriteFb_outside ha b _

/-- Settles O47, one equation of the frame read per case. -/
theorem hostFrameReads : Obligations.HostFrameReads := by
  intro s a rest
  refine ⟨fun b ha hb => ?_, fun ha hb => ?_, fun ha => ?_⟩ <;> rw [step_readFb]
  · exact hostReadFb_written (s := { s with inputs := rest }) ha hb
  · exact hostReadFb_unwritten (s := { s with inputs := rest }) ha hb
  · exact hostReadFb_outside ha _

/-- Settles O48: the sink leaves the tail of the queue. -/
theorem sinkTakesTheOldestRecord : Obligations.SinkTakesTheOldestRecord := by
  intro s rest
  refine ⟨fun r q hq => ?_, fun hq => ?_⟩ <;> rw [step_sink, sinkTake, hq]
  · rfl
  · rw [List.tail_nil, ← hq]

/-- After reset only the two registers with a reset value and no condition are valid (R211). -/
theorem regValid_assertReset {s : State} {r : Reg} (h : (assertReset s).regValid r = true) : r = .ps ∨ r = .mode := by
  cases r with
  | ps => exact .inl rfl
  | mode => exact .inr rfl
  | _ => exact absurd h Bool.false_ne_true

/-- Settles O49: the values are those of `State.reset`, and no register but `PS` and `MODE` is valid. -/
theorem resetLeavesTheStatedValues : Obligations.ResetLeavesTheStatedValues := fun s rest =>
  ⟨_, step_reset s rest, rfl, rfl, rfl, rfl, rfl, rfl, rfl, rfl, rfl, rfl, fun _ => regValid_assertReset, fun _ => rfl⟩

theorem State.doneOut_iff (s : State) : s.doneOut = true ↔ s.ps = .done := beq_iff_eq

/-- A command leaves `PS = L2` when it is accepted, and a running decode running when it is ignored: never `DONE`. -/
theorem acceptCommand_ps_ne_done (m : Mode) (l : Label) (s : State) : (acceptCommand m l s).ps ≠ .done := by
  cases h : s.ps.busy with
  | true =>
    rw [acceptCommand_busy h]
    intro hdone
    simp [hdone, ParserState.busy] at h
  | false =>
    rw [acceptCommand_waiting h]
    simp

/-- What a `CMD` write runs, whichever mode its bit 0 selects (R70). -/
theorem exec_decode_command (mode : BitVec 1) (l : Label) (above : Nat) (s : State) :
    ∃ m, exec (decode (.command mode l above)) s = .next (acceptCommand m l s) := by
  rw [decode, decodeCommand]
  split
  · exact ⟨_, exec_cmdSummarize l s⟩
  · exact ⟨_, exec_cmdProcess l s⟩

/-- Settles O50: after a `CMD` write the parser is not in `DONE`, whether the write was accepted or ignored. -/
theorem doneOutFollowsParserState : Obligations.DoneOutFollowsParserState := by
  refine ⟨State.doneOut_iff, fun s t mode l above h => ?_⟩
  obtain ⟨m, hm⟩ := exec_decode_command mode l above s
  cases hm.symm.trans h
  rw [← Bool.not_eq_true, State.doneOut_iff]
  exact acceptCommand_ps_ne_done m l s

/-- Settles O51: the inputs on which a step stops are the broken duties. -/
theorem stepStopsExactlyOnABrokenDuty : Obligations.StepStopsExactlyOnABrokenDuty := fun s => by
  rw [isNext_step, State.hostKeepsDuty_eq_false_iff]

end Sys2Proof.Machine
end

/-! ## The invariant of the reachable states

`State.Inv` lists what holds of a reachable state clause by clause. `State.inv_iff` says the same in five parts that a step can be
checked against: where the decode stands (`State.AtPhase`), the three clauses on keys, resolver and summary, and what the host and
the sink see stored (`State.Stored`). Each operation then goes from one phase to the next. -/

section
namespace Sys2Proof.Machine

/-! ### The five parts -/

/-- Where the decode stands: what each parser state says of the statuses and the cursor (R33). -/
def State.AtPhase (s : State) : Prop :=
  match s.ps with
  | .idle | .l2 => s.l2Status = .none ∧ s.l3Status = .none ∧ s.l4Status = .none ∧ s.off = 0
  | .l3 => s.l2Status = .ok ∧ s.l3Status = .none ∧ s.l4Status = .none ∧ s.off = 14 ∧ 14 ≤ s.frameLength
  | .l4 => s.l2Status = .ok ∧ s.l3Status.hasPayload = true ∧ s.l4Status = .none ∧ s.off ≤ s.frameLength
  | .done => (s.l2Status, s.l3Status, s.l4Status) ∈ doneTriples ∧ (s.l2Status = .rejected → s.off = 0)

theorem State.atPhase_waiting {s : State} (h : s.ps = .idle ∨ s.ps = .l2) : s.AtPhase ↔
    s.l2Status = .none ∧ s.l3Status = .none ∧ s.l4Status = .none ∧ s.off = 0 := by
  rcases h with h | h <;> simp only [State.AtPhase, h]

theorem State.atPhase_l3 {s : State} (h : s.ps = .l3) : s.AtPhase ↔
    s.l2Status = .ok ∧ s.l3Status = .none ∧ s.l4Status = .none ∧ s.off = 14 ∧ 14 ≤ s.frameLength := by
  simp only [State.AtPhase, h]

theorem State.atPhase_l4 {s : State} (h : s.ps = .l4) : s.AtPhase ↔
    s.l2Status = .ok ∧ s.l3Status.hasPayload = true ∧ s.l4Status = .none ∧ s.off ≤ s.frameLength := by
  simp only [State.AtPhase, h]

theorem State.atPhase_done {s : State} (h : s.ps = .done) : s.AtPhase ↔
    (s.l2Status, s.l3Status, s.l4Status) ∈ doneTriples ∧ (s.l2Status = .rejected → s.off = 0) := by
  simp only [State.AtPhase, h]

/-- What stands outside the decode: the frame as the host loaded it (R11, R12) and the records (R172). -/
def State.Stored (s : State) : Prop :=
  s.flen ≤ Config.fbMax ∧ s.fb.wf ∧ (∀ c ∈ s.fb.cells, c.1 < Config.fbMax) ∧ ∀ r ∈ s.reportQ, r.WellFormed

/-- How the three statuses go together in the twelve triples of R33 item 8. -/
theorem statuses_of_mem_doneTriples {l2 : L2Status} {l3 : L3Status} {l4 : L4Status} (h : (l2, l3, l4) ∈ doneTriples) :
    l2 ≠ .none ∧ (l2 = .rejected → l3 = .none ∧ l4 = .none) ∧ (l3 = .none → l2 = .rejected) ∧ (l3 ≠ .none → l2 = .ok) ∧
    (l4 ≠ .none ↔ l3.hasPayload = true) := by
  have hall : ∀ x ∈ doneTriples, x.1 ≠ .none ∧ (x.1 = .rejected → x.2.1 = .none ∧ x.2.2 = .none) ∧
      (x.2.1 = .none → x.1 = .rejected) ∧ (x.2.1 ≠ .none → x.1 = .ok) ∧ (x.2.2 ≠ .none ↔ x.2.1.hasPayload = true) := by
    decide
  exact hall _ h

theorem L3Status.ne_none_of_hasPayload {c : L3Status} (h : c.hasPayload = true) : c ≠ .none := by
  rintro rfl
  simp [L3Status.hasPayload] at h

/-- A layer-3 header with a payload and any layer-4 outcome make one of the twelve triples. -/
theorem mem_doneTriples_of_hasPayload {l3 : L3Status} {l4 : L4Status} (h3 : l3.hasPayload = true) (h4 : l4 ≠ .none) :
    (L2Status.ok, l3, l4) ∈ doneTriples := by
  obtain rfl | rfl := (L3Status.hasPayload_iff l3).mp h3 <;> revert h4 <;> cases l4 <;> decide

/-- The cursor's legal values (R14). -/
theorem State.off_legal {s : State} (hphase : s.AtPhase) (hkeys : s.keysAgree) :
    s.off = 0 ∨ s.off = 14 ∨ s.off = 54 ∨ ∃ k, 5 ≤ k ∧ k ≤ 15 ∧ s.off = 14 + 4 * k := by
  cases h3 : s.l3Status <;> simp only [State.keysAgree, h3] at hkeys
  case none =>
    cases hps : s.ps <;> simp only [State.AtPhase, hps] at hphase
    case idle | l2 =>
      obtain ⟨-, -, -, hoff⟩ := hphase
      exact .inl hoff
    case l3 =>
      obtain ⟨-, -, -, hoff, -⟩ := hphase
      exact .inr (.inl hoff)
    case l4 =>
      obtain ⟨-, hpayload, -⟩ := hphase
      exact absurd h3 (L3Status.ne_none_of_hasPayload hpayload)
    case done =>
      obtain ⟨htriple, hoff⟩ := hphase
      obtain ⟨-, -, hrejected, -⟩ := statuses_of_mem_doneTriples htriple
      exact .inl (hoff (hrejected h3))
  case ipv4 =>
    obtain ⟨-, -, hihl, hoff⟩ := hkeys
    exact .inr (.inr (.inr ⟨s.ip4.ihl.toNat, hihl, Nat.le_of_lt_succ s.ip4.ihl.isLt, hoff⟩))
  case ipv6 => exact .inr (.inr (.inl hkeys.2.2))
  case arp | unsupported | malformed => exact .inr (.inl hkeys.2)

theorem State.off_le {s : State} (hphase : s.AtPhase) (hkeys : s.keysAgree) : s.off ≤ 74 := by
  obtain h | h | h | ⟨k, -, hk, h⟩ := State.off_legal hphase hkeys <;> omega

/-- A zero-extended IPv4 address has zeros above its 32 bits. -/
theorem extractUpper_setWidth (a : Ipv4Addr) : (a.setWidth 128).extractLsb' 32 96 = 0 := by
  ext i hi
  simp

/-- `SUM_KIND` is what the layer-3 status says, and the addresses are zero where it says so (R25, R33 items 4 to 6). -/
theorem State.sum_of_summaryAgrees {s : State} (h : s.summaryAgrees) :
    (s.sum.kind = .v6 ↔ s.l3Status = .ipv6) ∧ (s.sum.kind = .v4 ↔ (s.l3Status = .ipv4 ∨ s.l3Status = .arp)) ∧
    (s.sum.kind = .na ↔ (s.l3Status = .none ∨ s.l3Status = .unsupported ∨ s.l3Status = .malformed)) ∧
    (s.sum.kind = .na → s.sum.src = 0 ∧ s.sum.dst = 0) ∧
    (s.sum.kind = .v4 → s.sum.src.extractLsb' 32 96 = 0 ∧ s.sum.dst.extractLsb' 32 96 = 0) := by
  cases h3 : s.l3Status <;> simp only [State.summaryAgrees, h3] at h <;> simp [h, extractUpper_setWidth]

/-- What every phase says of the statuses and the cursor (R33 items 1 to 3). -/
theorem State.statuses_of_atPhase {s : State} (h : s.AtPhase) :
    (s.l2Status = .rejected → s.l3Status = .none ∧ s.l4Status = .none ∧ (s.ps = .done → s.off = 0)) ∧
    (s.l3Status ≠ .none → s.l2Status = .ok) ∧ (s.l4Status ≠ .none → s.l3Status.hasPayload = true) := by
  cases hps : s.ps <;> simp only [State.AtPhase, hps] at h
  case idle | l2 | l3 =>
    obtain ⟨h2, h3, h4, -⟩ := h
    simp [h2, h3, h4]
  case l4 =>
    obtain ⟨h2, h3, h4, -⟩ := h
    simp [h2, h3]
  case done =>
    obtain ⟨htriple, hoff⟩ := h
    obtain ⟨-, hrejected, -, hok, hresolved⟩ := statuses_of_mem_doneTriples htriple
    refine ⟨fun hr => ?_, hok, hresolved.mp⟩
    obtain ⟨h3, h4⟩ := hrejected hr
    exact ⟨h3, h4, fun _ => hoff hr⟩

/-- The invariant is its five parts: the cursor's bound and the eight items of R33 follow from the phase, the keys and the
summary. -/
theorem State.inv_iff (s : State) :
    s.Inv ↔ s.AtPhase ∧ s.keysAgree ∧ s.resolverAgrees ∧ s.summaryAgrees ∧ s.Stored := by
  constructor
  · intro h
    refine ⟨?_, h.keys, h.resolver, h.summary, h.length, h.canonical, h.extent, h.reports⟩
    cases hps : s.ps
    case idle => exact (State.atPhase_waiting (.inl hps)).mpr (h.notStarted (.inl hps))
    case l2 => exact (State.atPhase_waiting (.inr hps)).mpr (h.notStarted (.inr hps))
    case l3 =>
      obtain ⟨h2, hoff, hlen⟩ := h.r33.atL3 hps
      obtain ⟨h3, h4⟩ := h.beforeL3 hps
      exact (State.atPhase_l3 hps).mpr ⟨h2, h3, h4, hoff, hlen⟩
    case l4 =>
      obtain ⟨hpayload, hlen⟩ := h.r33.atL4 hps
      have h2 := h.r33.layer3 (L3Status.ne_none_of_hasPayload hpayload)
      exact (State.atPhase_l4 hps).mpr ⟨h2, hpayload, h.beforeL4 hps, hlen⟩
    case done =>
      refine (State.atPhase_done hps).mpr ⟨h.r33.triple hps, fun hr => ?_⟩
      obtain ⟨-, -, -, hoff⟩ := h.r33.rejected hr
      exact hoff hps
  · rintro ⟨hphase, hkeys, hresolver, hsummary, hlength, hcanonical, hextent, hreports⟩
    obtain ⟨hrejected, hlayer3, hlayer4⟩ := State.statuses_of_atPhase hphase
    obtain ⟨hv6, hv4, hna, hsentinel, hupper⟩ := State.sum_of_summaryAgrees hsummary
    have hr33 : s.Reachable33 :=
      { rejected := fun hr => by
          obtain ⟨h3, h4, hoff⟩ := hrejected hr
          exact ⟨h3, h4, hna.mpr (.inl h3), hoff⟩
        layer3 := hlayer3
        layer4 := hlayer4
        resolved := fun hps hpayload => by
          obtain ⟨htriple, -⟩ := (State.atPhase_done hps).mp hphase
          obtain ⟨-, -, -, -, hresolved⟩ := statuses_of_mem_doneTriples htriple
          exact hresolved.mpr hpayload
        kindV6 := hv6
        kindV4 := hv4
        kindNa := hna
        sentinel := hsentinel
        upperZero := hupper
        atL3 := fun hps => by
          obtain ⟨h2, -, -, hoff, hlen⟩ := (State.atPhase_l3 hps).mp hphase
          exact ⟨h2, hoff, hlen⟩
        atL4 := fun hps => by
          obtain ⟨-, hpayload, -, hlen⟩ := (State.atPhase_l4 hps).mp hphase
          exact ⟨hpayload, hlen⟩
        triple := fun hps => by
          obtain ⟨htriple, -⟩ := (State.atPhase_done hps).mp hphase
          exact htriple }
    exact
      { r33 := hr33
        notStarted := fun hps => (State.atPhase_waiting hps).mp hphase
        beforeL3 := fun hps => by
          obtain ⟨-, h3, h4, -⟩ := (State.atPhase_l3 hps).mp hphase
          exact ⟨h3, h4⟩
        beforeL4 := fun hps => by
          obtain ⟨-, -, h4, -⟩ := (State.atPhase_l4 hps).mp hphase
          exact h4
        keys := hkeys
        resolver := hresolver
        summary := hsummary
        cursor := State.off_le hphase hkeys
        length := hlength
        canonical := hcanonical
        extent := hextent
        reports := hreports }

/-- Settles O39: bit vectors fit by type, `FLEN` by its bound, and `OFF` and `IP4_IHL` by the phase and the keys. -/
theorem registersFitTheirWidths : Obligations.RegistersFitTheirWidths := by
  intro s h
  obtain ⟨hphase, hkeys, -⟩ := s.inv_iff.mp h
  refine ⟨fun r hr => ?widths, ?_, ?_, ?_, ?_, ?_, h.length, State.frameLength_le h.length, State.off_legal hphase hkeys,
    fun hvalid => ?ihl⟩
  case widths =>
    cases r with
    | label => exact absurd rfl hr
    | flen => exact ⟨_, _, rfl, rfl, Nat.lt_of_le_of_lt h.length Nat.lt_log2_self⟩
    | off => exact ⟨_, _, rfl, rfl, Nat.lt_of_le_of_lt h.cursor (by decide)⟩
    | _ => exact ⟨_, _, rfl, rfl, BitVec.isLt _⟩
  case ihl =>
    have h3 : s.l3Status = .ipv4 := beq_iff_eq.mp hvalid
    simp only [State.keysAgree, h3] at hkeys
    obtain ⟨-, -, hihl, -⟩ := hkeys
    exact ⟨hihl, Nat.le_of_lt_succ s.ip4.ihl.isLt⟩
  · cases s.ps <;> decide
  · cases s.l2Status <;> decide
  · cases s.l3Status <;> decide
  · cases s.l4Status <;> decide
  · cases s.sum.kind <;> decide

/-! ### The shared updates -/

/-- A waiting parser with nothing decoded meets the invariant, whatever its field registers hold. -/
theorem inv_of_nothing_decoded {s : State} (hps : s.ps = .idle ∨ s.ps = .l2) (h2 : s.l2Status = .none)
    (h3 : s.l3Status = .none) (h4 : s.l4Status = .none) (hoff : s.off = 0) (hsum : s.sum = .sentinel) (hs : s.Stored) :
    s.Inv := by
  refine s.inv_iff.mpr ⟨(State.atPhase_waiting hps).mpr ⟨h2, h3, h4, hoff⟩, ?_, ?_, ?_, hs⟩
  · simp [State.keysAgree, h3]
  · simp [State.resolverAgrees, h4]
  · simp [State.summaryAgrees, h3, hsum, SumRegs.sentinel]

theorem stored_of_empty {s : State} (hflen : s.flen = 0) (hcells : s.fb.cells = []) (hq : s.reportQ = []) : s.Stored := by
  simp [State.Stored, Memory.wf, hflen, hcells, hq]

/-- Settles O38: after reset nothing is decoded, `FB` is blank and no record waits. -/
theorem resetMeetsTheInvariant : Obligations.ResetMeetsTheInvariant :=
  inv_of_nothing_decoded (.inl rfl) rfl rfl rfl rfl rfl (stored_of_empty rfl rfl rfl)

theorem isSome_validOnly {α : Type} (valid : Bool) (x : α) : (validOnly valid x).isSome = true ↔ valid = true := by
  cases valid <;> simp [validOnly]

/-- A record is whole by construction; only that layer 2 has run is a fact about the decode (R170). -/
theorem State.report_wellFormed {s : State} (h : s.l2Status ≠ .none) : s.report.WellFormed where
  layer2 := h
  eth := (isSome_validOnly _ _).trans beq_iff_eq
  ip4 := (isSome_validOnly _ _).trans beq_iff_eq
  ip6 := (isSome_validOnly _ _).trans beq_iff_eq
  arp := (isSome_validOnly _ _).trans beq_iff_eq
  l4key := isSome_validOnly _ _
  ports := isSome_validOnly _ _

theorem stored_enterDone {s : State} (hs : s.Stored) (h2 : s.l2Status ≠ .none) : (enterDone s).Stored := by
  obtain ⟨hlength, hcanonical, hextent, hreports⟩ := hs
  refine ⟨hlength, hcanonical, hextent, fun r hr => ?_⟩
  rw [enterDone_reportQ] at hr
  cases hm : s.mode <;> simp only [hm] at hr
  · exact hreports r hr
  · rw [List.mem_append, List.mem_singleton] at hr
    obtain hr | rfl := hr
    · exact hreports r hr
    · exact State.report_wellFormed h2

/-- The `DONE` entry action, once the outcome is recorded: what is left to know is the outcome itself. -/
theorem inv_enterDone {s : State} (htriple : (s.l2Status, s.l3Status, s.l4Status) ∈ doneTriples)
    (hoff : s.l2Status = .rejected → s.off = 0) (hkeys : s.keysAgree) (hresolver : s.resolverAgrees)
    (hsummary : s.summaryAgrees) (hs : s.Stored) : (enterDone s).Inv := by
  obtain ⟨h2, -⟩ := statuses_of_mem_doneTriples htriple
  exact (State.inv_iff _).mpr ⟨(State.atPhase_done rfl).mpr ⟨htriple, hoff⟩, hkeys, hresolver, hsummary,
    stored_enterDone hs h2⟩

/-! ### The operations, phase by phase -/

theorem acceptCommand_keeps_inv {s : State} (h : s.Inv) (m : Mode) (l : Label) : (acceptCommand m l s).Inv := by
  cases hb : s.ps.busy with
  | true => rwa [acceptCommand_busy hb]
  | false =>
    obtain ⟨-, -, -, -, hs⟩ := s.inv_iff.mp h
    rw [acceptCommand_waiting hb]
    exact inv_of_nothing_decoded (.inr rfl) rfl rfl rfl rfl rfl hs

theorem State.Inv.at_l2 {s : State} (h : s.Inv) (hps : s.ps = .l2) : s.l2Status = .none ∧ s.l3Status = .none ∧
    s.l4Status = .none ∧ s.off = 0 ∧ s.sum = ⟨.na, 0, 0⟩ ∧ s.Stored := by
  obtain ⟨hphase, -, -, hsummary, hs⟩ := s.inv_iff.mp h
  obtain ⟨h2, h3, h4, hoff⟩ := (State.atPhase_waiting (.inr hps)).mp hphase
  simp only [State.summaryAgrees, h3] at hsummary
  exact ⟨h2, h3, h4, hoff, hsummary, hs⟩

theorem State.Inv.at_l3 {s : State} (h : s.Inv) (hps : s.ps = .l3) : s.l2Status = .ok ∧ s.l3Status = .none ∧
    s.l4Status = .none ∧ s.off = 14 ∧ 14 ≤ s.frameLength ∧ s.sum = ⟨.na, 0, 0⟩ ∧ s.Stored := by
  obtain ⟨hphase, -, -, hsummary, hs⟩ := s.inv_iff.mp h
  obtain ⟨h2, h3, h4, hoff, hlen⟩ := (State.atPhase_l3 hps).mp hphase
  simp only [State.summaryAgrees, h3] at hsummary
  exact ⟨h2, h3, h4, hoff, hlen, hsummary, hs⟩

/-- A rejected frame: nothing was decoded, and the cursor is at 0 (R182). -/
theorem inv_rejected {s : State} (h : s.Inv) (hps : s.ps = .l2) : (raiseEvent .rejected { s with off := 0 }).Inv := by
  obtain ⟨-, h3, h4, -, hsum, hs⟩ := h.at_l2 hps
  show (enterDone { s with off := 0, l2Status := .rejected }).Inv
  apply inv_enterDone
  · simp [h3, h4, doneTriples]
  · exact fun _ => rfl
  · simp [State.keysAgree, h3]
  · simp [State.resolverAgrees, h4]
  · simp [State.summaryAgrees, h3, hsum]
  · exact hs

/-- A decoded Ethernet header: the parser goes to `L3` at offset 14, inside the frame. -/
theorem inv_loadEth {s : State} (h : s.Inv) (hps : s.ps = .l2) (hlen : 14 ≤ s.frameLength) (e : EthRegs) :
    (loadEth e 14 s).Inv := by
  obtain ⟨-, h3, h4, -, hsum, hs⟩ := h.at_l2 hps
  refine (State.inv_iff _).mpr ⟨(State.atPhase_l3 rfl).mpr ⟨rfl, h3, h4, rfl, hlen⟩, ?_, ?_, ?_, hs⟩
  · simp [State.keysAgree, h3]
  · simp [State.resolverAgrees, h4]
  · simp [State.summaryAgrees, h3, hsum]

/-- Every layer-3 outcome without a payload ends the decode; what differs is the status, the ARP group and the summary it leaves,
and what the status says of the key. -/
theorem inv_ended_at_l3 {s : State} (h : s.Inv) (hps : s.ps = .l3) (c : L3Status) (p : ArpRegs) (m : SumRegs)
    (hc : (L2Status.ok, c, L4Status.none) ∈ doneTriples) (hkeys : ({ s with l3Status := c } : State).keysAgree)
    (hsummary : ({ s with arp := p, l3Status := c, sum := m } : State).summaryAgrees) :
    (enterDone { s with arp := p, l3Status := c, sum := m }).Inv := by
  obtain ⟨h2, -, h4, -, -, -, hs⟩ := h.at_l3 hps
  apply inv_enterDone
  · simpa only [h2, h4] using hc
  · simp [h2]
  · exact hkeys
  · simp [State.resolverAgrees, h4]
  · exact hsummary
  · exact hs

/-- A layer-3 header that does not fit its view, of a kind that has one (R121 to R123). -/
theorem inv_malformedL3 {s : State} (h : s.Inv) (hps : s.ps = .l3) (hkey : s.eth.etherType ∈ listedEtherTypes) :
    (raiseEvent .malformedL3 s).Inv := by
  obtain ⟨-, -, -, hoff, -, hsum, -⟩ := h.at_l3 hps
  exact inv_ended_at_l3 h hps .malformed s.arp s.sum (by decide) ⟨hkey, hoff⟩ hsum

/-- An ethertype that has no view (R124). -/
theorem inv_unsupportedL3 {s : State} (h : s.Inv) (hps : s.ps = .l3) (hkey : s.eth.etherType ∉ listedEtherTypes) :
    (raiseEvent .unsupportedL3 s).Inv := by
  obtain ⟨-, -, -, hoff, -, hsum, -⟩ := h.at_l3 hps
  exact inv_ended_at_l3 h hps .unsupported s.arp s.sum (by decide) ⟨hkey, hoff⟩ hsum

/-- A decoded ARP packet ends the decode with the cursor where it was (R123). -/
theorem inv_loadArp {s : State} (h : s.Inv) (hps : s.ps = .l3) (hkey : s.eth.etherType = Config.etypeArp) (p : ArpRegs) :
    (loadArp p s).Inv := by
  obtain ⟨-, -, -, hoff, -⟩ := h.at_l3 hps
  exact inv_ended_at_l3 h hps .arp p (.ofV4 p.spa p.tpa) (by decide) ⟨hkey, hoff⟩ rfl

/-- A decoded IPv4 header: the parser goes to `L4` behind it, inside the frame (R121). -/
theorem inv_loadIpv4 {s : State} (h : s.Inv) (hps : s.ps = .l3) (hkey : s.eth.etherType = Config.etypeIpv4) (p : Ip4Regs)
    (hihl : 5 ≤ p.ihl.toNat) (hlen : 4 * p.ihl.toNat ≤ s.frameLength - s.off) :
    (loadIpv4 p (s.off + 4 * p.ihl.toNat) s).Inv := by
  obtain ⟨h2, -, h4, hoff, hat, -, hs⟩ := h.at_l3 hps
  have hinside : s.off + 4 * p.ihl.toNat ≤ s.frameLength := by omega
  refine (State.inv_iff _).mpr ⟨(State.atPhase_l4 rfl).mpr ⟨h2, rfl, h4, hinside⟩, ⟨hkey, rfl, hihl, ?_⟩, ?_, rfl, hs⟩
  · simp [hoff]
  · simp [State.resolverAgrees, h4]

/-- A decoded IPv6 header: the parser goes to `L4` behind its 40 bytes, inside the frame (R122). -/
theorem inv_loadIpv6 {s : State} (h : s.Inv) (hps : s.ps = .l3) (hkey : s.eth.etherType = Config.etypeIpv6) (p : Ip6Regs)
    (hlen : 40 ≤ s.frameLength - s.off) : (loadIpv6 p (s.off + 40) s).Inv := by
  obtain ⟨h2, -, h4, hoff, -, -, hs⟩ := h.at_l3 hps
  have hinside : s.off + 40 ≤ s.frameLength := by omega
  refine (State.inv_iff _).mpr ⟨(State.atPhase_l4 rfl).mpr ⟨h2, rfl, h4, hinside⟩, ⟨hkey, rfl, ?_⟩, ?_, rfl, hs⟩
  · simp [hoff]
  · simp [State.resolverAgrees, h4]

/-- Every layer-4 outcome ends the decode; what differs is the status, the ports it leaves, and what the status says of the key. -/
theorem inv_resolved {s : State} (h : s.Inv) (hps : s.ps = .l4) (c : L4Status) (p : PortRegs) (hc : c ≠ .none)
    (hresolver : ({ s with l4Status := c } : State).resolverAgrees) :
    (enterDone { s with ports := p, l4Status := c }).Inv := by
  obtain ⟨hphase, hkeys, -, hsummary, hs⟩ := s.inv_iff.mp h
  obtain ⟨h2, hpayload, -, -⟩ := (State.atPhase_l4 hps).mp hphase
  apply inv_enterDone
  · simpa only [h2] using mem_doneTriples_of_hasPayload hpayload hc
  · simp [h2]
  · exact hkeys
  · exact hresolver
  · exact hsummary
  · exact hs

theorem inv_loadPorts_tcp {s : State} (h : s.Inv) (hps : s.ps = .l4) (hkey : s.l4key = Config.protoTcp) (p : PortRegs) :
    (loadPorts .tcp p s).Inv := inv_resolved h hps .tcp p (by decide) hkey

theorem inv_loadPorts_udp {s : State} (h : s.Inv) (hps : s.ps = .l4) (hkey : s.l4key = Config.protoUdp) (p : PortRegs) :
    (loadPorts .udp p s).Inv := inv_resolved h hps .udp p (by decide) hkey

theorem inv_malformedL4 {s : State} (h : s.Inv) (hps : s.ps = .l4) (hkey : s.l4key ∈ listedProtocols) :
    (raiseEvent .malformedL4 s).Inv := inv_resolved h hps .malformed s.ports (by decide) hkey

theorem inv_unsupportedL4 {s : State} (h : s.Inv) (hps : s.ps = .l4) (hkey : s.l4key ∉ listedProtocols) :
    (raiseEvent .unsupportedL4 s).Inv := inv_resolved h hps .unsupported s.ports (by decide) hkey

/-! ### Layer by layer: the operation the key selects -/

theorem execL2_keeps_inv {s t : State} (h : s.Inv) (hps : s.ps = .l2) (ht : exec .l2Eth s = .next t) : t.Inv := by
  rw [exec_l2Eth] at ht
  cases ht
  split_ifs with hshort
  · exact inv_rejected h hps
  · exact inv_loadEth h hps (Nat.not_lt.mp hshort) _

theorem execL3_keeps_inv {s t : State} (h : s.Inv) (hps : s.ps = .l3)
    (ht : exec (decodeLayer3 s.eth.etherType) s = .next t) : t.Inv := by
  unfold decodeLayer3 at ht
  split_ifs at ht with h4 h6 ha
  · rw [exec_l3Ipv4] at ht
    cases ht
    dsimp only
    split_ifs with hbad
    · exact inv_malformedL3 h hps (by simp [h4, listedEtherTypes])
    · simp only [not_or, Nat.not_lt] at hbad
      obtain ⟨-, hihl, hlen⟩ := hbad
      exact inv_loadIpv4 h hps h4 _ hihl hlen
  · rw [exec_l3Ipv6] at ht
    cases ht
    split_ifs with hshort
    · exact inv_malformedL3 h hps (by simp [h6, listedEtherTypes])
    · exact inv_loadIpv6 h hps h6 _ (Nat.not_lt.mp hshort)
  · rw [exec_l3Arp] at ht
    cases ht
    split_ifs
    · exact inv_malformedL3 h hps (by simp [ha, listedEtherTypes])
    · exact inv_loadArp h hps ha _
  · rw [exec_l3Other] at ht
    cases ht
    exact inv_unsupportedL3 h hps (by simpa [listedEtherTypes] using ⟨h4, h6, ha⟩)

theorem execL4_keeps_inv {s t : State} (h : s.Inv) (hps : s.ps = .l4)
    (ht : exec (decodeLayer4 s.l4key) s = .next t) : t.Inv := by
  unfold decodeLayer4 at ht
  split_ifs at ht with htcp hudp
  · rw [exec_l4Tcp] at ht
    cases ht
    split_ifs
    · exact inv_malformedL4 h hps (by simp [htcp, listedProtocols])
    · exact inv_loadPorts_tcp h hps htcp _
  · rw [exec_l4Udp] at ht
    cases ht
    split_ifs
    · exact inv_malformedL4 h hps (by simp [hudp, listedProtocols])
    · exact inv_loadPorts_udp h hps hudp _
  · rw [exec_l4Other] at ht
    cases ht
    exact inv_unsupportedL4 h hps (by simpa [listedProtocols] using ⟨htcp, hudp⟩)

/-- The operation the parser dispatches to keeps the invariant (R146). -/
theorem parserOperation_keeps_inv {s t : State} (h : s.Inv) {k : Key} (hk : s.parserKey = some k)
    (ht : exec (decode k) s = .next t) : t.Inv := by
  unfold State.parserKey at hk
  split at hk <;> rename_i hps <;> cases hk
  · exact execL2_keeps_inv h hps ht
  · exact execL3_keeps_inv h hps ht
  · exact execL4_keeps_inv h hps ht

theorem command_keeps_inv {s t : State} (h : s.Inv) {mode : BitVec 1} {l : Label} {above : Nat}
    (ht : exec (decode (.command mode l above)) s = .next t) : t.Inv := by
  obtain ⟨m, hm⟩ := exec_decode_command mode l above s
  cases hm.symm.trans ht
  exact acceptCommand_keeps_inv h m l

/-! ### The host, the sink and reset -/

/-- The inputs and the last host read are no part of the invariant. -/
theorem inv_inputs_hostData {s : State} (h : s.Inv) (rest : List Input) (d : HostRead) :
    ({ s with inputs := rest, hostData := d } : State).Inv := by
  have hparts := s.inv_iff.mp h
  exact (State.inv_iff _).mpr hparts

theorem hostReadReg_keeps_inv {s t : State} (h : s.Inv) {r : Reg} (ht : hostReadReg r s = .next t) : t.Inv := by
  cases ht
  exact inv_inputs_hostData h s.inputs _

theorem hostReadFb_keeps_inv {s t : State} (h : s.Inv) {a : Nat} (ht : hostReadFb a s = .next t) : t.Inv := by
  unfold hostReadFb at ht
  split at ht <;> cases ht
  exact inv_inputs_hostData h s.inputs _

/-- A length is stored only while no decode runs, and no waiting phase speaks of it. -/
theorem hostWriteLength_keeps_inv {s t : State} (h : s.Inv) {v : Nat} (ht : hostWriteLength v s = .next t) : t.Inv := by
  unfold hostWriteLength at ht
  split_ifs at ht with hbusy hv
  cases ht
  obtain ⟨hphase, hkeys, hresolver, hsummary, -, hstored⟩ := s.inv_iff.mp h
  refine (State.inv_iff _).mpr ⟨?_, hkeys, hresolver, hsummary, hv, hstored⟩
  cases hps : s.ps
  case idle => exact (State.atPhase_waiting (.inl rfl)).mpr ((State.atPhase_waiting (.inl hps)).mp hphase)
  case done => exact (State.atPhase_done rfl).mpr ((State.atPhase_done hps).mp hphase)
  case l2 | l3 | l4 => simp [hps, ParserState.busy] at hbusy

theorem hostWriteReg_keeps_inv {s t : State} (h : s.Inv) {r : Reg} {v : Nat} (ht : hostWriteReg r v s = .next t) :
    t.Inv := by
  by_cases hr : r = .flen
  · subst hr
    exact hostWriteLength_keeps_inv h ht
  · rw [hostWriteReg_readOnly hr] at ht
    cases ht
    exact h

/-- A byte is stored inside `FB`, in the canonical form; the invariant says nothing of its value. -/
theorem hostWriteFb_keeps_inv {s t : State} (h : s.Inv) {a : Nat} {b : Byte} (ht : hostWriteFb a b s = .next t) : t.Inv := by
  unfold hostWriteFb at ht
  split_ifs at ht with hout
  cases ht
  obtain ⟨hphase, hkeys, hresolver, hsummary, hlength, hcanonical, hextent, hreports⟩ := s.inv_iff.mp h
  have hextent' : ∀ c ∈ (s.fb.write a b).cells, c.1 < Config.fbMax := fun c hc => by
    obtain hold | rfl := mem_insertCell hc
    · exact hextent c hold
    · exact Nat.not_le.mp hout
  exact (State.inv_iff _).mpr
    ⟨hphase, hkeys, hresolver, hsummary, hlength, Memory.wf_write hcanonical a b, hextent', hreports⟩

theorem sinkTake_keeps_inv {s : State} (h : s.Inv) : (sinkTake s).Inv := by
  obtain ⟨hphase, hkeys, hresolver, hsummary, hlength, hcanonical, hextent, hreports⟩ := s.inv_iff.mp h
  exact (State.inv_iff _).mpr ⟨hphase, hkeys, hresolver, hsummary, hlength, hcanonical, hextent,
    fun r hr => hreports r (List.mem_of_mem_tail hr)⟩

/-- Reset leads to the invariant from every state. -/
theorem inv_assertReset (s : State) : (assertReset s).Inv :=
  inv_of_nothing_decoded (.inl rfl) rfl rfl rfl rfl rfl (stored_of_empty rfl rfl rfl)

/-- Whoever moves, the mover's lemma says that the invariant is kept, in the state with the input used up. -/
theorem step_keeps_inv {s t : State} (h : s.Inv) (ht : step s = .next t) : t.Inv := by
  have h' : ({ s with inputs := s.inputs.tail } : State).Inv := inv_inputs_hostData h s.inputs.tail s.hostData
  rcases step_cases s with ⟨-, -, hs⟩ | ⟨k, hk, -, hs⟩ | ⟨m, l, above, -, hs⟩ | ⟨-, hs⟩ | ⟨r, v, -, hs⟩ |
    ⟨r, -, hs⟩ | ⟨a, b, -, hs⟩ | ⟨a, -, hs⟩ | ⟨-, hs⟩ | ⟨-, hs⟩ <;> rw [hs] at ht
  · cases ht
    exact h'
  · exact parserOperation_keeps_inv h' hk ht
  · exact command_keeps_inv h' ht
  · cases ht
  · exact hostWriteReg_keeps_inv h' ht
  · exact hostReadReg_keeps_inv h' ht
  · exact hostWriteFb_keeps_inv h' ht
  · exact hostReadFb_keeps_inv h' ht
  · cases ht
    exact sinkTake_keeps_inv h'
  · cases ht
    exact inv_assertReset _

/-- Settles O37: the cases of a step are taken apart in `step_keeps_inv`. -/
theorem everyStepKeepsTheInvariant : Obligations.EveryStepKeepsTheInvariant := fun _ _ => step_keeps_inv

end Sys2Proof.Machine
end

/-! ## `MemRead` and the frame

The value of a `MemRead` as a sum (R41, R42), and what every operation leaves unchanged of the frame and of the environment
(R44). -/

section
namespace Sys2Proof.Machine

/-- The bytes are weighed by powers of 256, the byte at the lowest offset most (R42). -/
theorem Memory.bigEndian_eq_sum (m : Memory) (addr n : Nat) :
    Memory.bigEndian m addr n = ∑ i ∈ Finset.range n, (m.read (addr + i)).toNat * 256 ^ (n - 1 - i) := by
  induction n with
  | zero => rfl
  | succ n ih =>
    have hshift : ∀ i ∈ Finset.range n, (m.read (addr + i)).toNat * 256 ^ (n - 1 - i) * 256 =
        (m.read (addr + i)).toNat * 256 ^ (n + 1 - 1 - i) := fun i hi => by
      have hlt := Finset.mem_range.mp hi
      rw [mul_assoc, ← pow_succ, show n - 1 - i + 1 = n + 1 - 1 - i by omega]
    rw [Memory.bigEndian, ih, Finset.sum_range_succ, Finset.sum_mul, Finset.sum_congr rfl hshift]
    simp

/-- Settles O6: the value is `Memory.field`, whose number is the sum of the bytes. -/
theorem memReadIsBigEndianInsideTheFrame : Obligations.MemReadIsBigEndianInsideTheFrame := by
  intro fb flen addr n _ _
  refine ⟨fun hinside => ⟨fb.field addr n, memRead_inside hinside, ?_⟩, memRead_outside⟩
  rw [Memory.field_toNat, Memory.bigEndian_eq_sum]

/-- `t` has the frame and the environment of `s`. -/
def State.SameFrame (s t : State) : Prop :=
  t.fb = s.fb ∧ t.flen = s.flen ∧ t.inputs = s.inputs ∧ t.hostData = s.hostData

theorem sameFrame_acceptCommand (m : Mode) (l : Label) (s : State) : s.SameFrame (acceptCommand m l s) := by
  cases h : s.ps.busy with
  | true => rw [acceptCommand_busy h]; exact ⟨rfl, rfl, rfl, rfl⟩
  | false => rw [acceptCommand_waiting h]; exact ⟨rfl, rfl, rfl, rfl⟩

theorem sameFrame_raiseEvent (e : Event) (s : State) : s.SameFrame (raiseEvent e s) := by
  simp [State.SameFrame]

theorem sameFrame_loadEth (h : EthRegs) (p : Nat) (s : State) : s.SameFrame (loadEth h p s) := ⟨rfl, rfl, rfl, rfl⟩

theorem sameFrame_loadIpv4 (h : Ip4Regs) (p : Nat) (s : State) : s.SameFrame (loadIpv4 h p s) := ⟨rfl, rfl, rfl, rfl⟩

theorem sameFrame_loadIpv6 (h : Ip6Regs) (p : Nat) (s : State) : s.SameFrame (loadIpv6 h p s) := ⟨rfl, rfl, rfl, rfl⟩

theorem sameFrame_loadArp (h : ArpRegs) (s : State) : s.SameFrame (loadArp h s) := ⟨rfl, rfl, rfl, rfl⟩

theorem sameFrame_loadPorts (c : L4Status) (h : PortRegs) (s : State) : s.SameFrame (loadPorts c h s) :=
  ⟨rfl, rfl, rfl, rfl⟩

theorem sameFrame_ite {c : Prop} [Decidable c] {s t u : State} (ht : s.SameFrame t) (hu : s.SameFrame u) :
    s.SameFrame (if c then t else u) := by
  split_ifs
  · exact ht
  · exact hu

/-- Each operation ends in one of the shared updates, and each of these keeps frame and environment. -/
theorem exec_sameFrame {i : Instr} {s t : State} (ht : exec i s = .next t) : s.SameFrame t := by
  cases i with
  | cmdSummarize l => cases (exec_cmdSummarize l s).symm.trans ht; exact sameFrame_acceptCommand _ l s
  | cmdProcess l => cases (exec_cmdProcess l s).symm.trans ht; exact sameFrame_acceptCommand _ l s
  | l2Eth =>
    cases (exec_l2Eth s).symm.trans ht
    exact sameFrame_ite (sameFrame_raiseEvent _ { s with off := 0 }) (sameFrame_loadEth _ _ s)
  | l3Ipv4 =>
    cases (exec_l3Ipv4 s).symm.trans ht
    exact sameFrame_ite (sameFrame_raiseEvent _ s) (sameFrame_loadIpv4 _ _ s)
  | l3Ipv6 =>
    cases (exec_l3Ipv6 s).symm.trans ht
    exact sameFrame_ite (sameFrame_raiseEvent _ s) (sameFrame_loadIpv6 _ _ s)
  | l3Arp =>
    cases (exec_l3Arp s).symm.trans ht
    exact sameFrame_ite (sameFrame_raiseEvent _ s) (sameFrame_loadArp _ s)
  | l3Other k => cases (exec_l3Other k s).symm.trans ht; exact sameFrame_raiseEvent _ s
  | l4Tcp =>
    cases (exec_l4Tcp s).symm.trans ht
    exact sameFrame_ite (sameFrame_raiseEvent _ s) (sameFrame_loadPorts _ _ s)
  | l4Udp =>
    cases (exec_l4Udp s).symm.trans ht
    exact sameFrame_ite (sameFrame_raiseEvent _ s) (sameFrame_loadPorts _ _ s)
  | l4Other k => cases (exec_l4Other k s).symm.trans ht; exact sameFrame_raiseEvent _ s

/-- Settles O7: the bytes are those of an unchanged `FB`. -/
theorem noOperationWritesTheFrame : Obligations.NoOperationWritesTheFrame := by
  intro i s t ht
  obtain ⟨hfb, hflen, hinputs, hdata⟩ := exec_sameFrame ht
  exact ⟨fun a => by rw [hfb], hfb, hflen, hinputs, hdata⟩

/-- Settles O8. -/
theorem everyOperationAnswersANextState : Obligations.EveryOperationAnswersANextState := exec_eq_next

end Sys2Proof.Machine
end

/-! ## The run of a decode (R148)

A decode is followed layer by layer, from the back: what the parser still has to do in `L4`, then in `L3`, then in `L2`, and last
the command. Each layer's lemma says that the registers end with what the layer's part of `Decode` makes of the Result so far. -/

section
namespace Sys2Proof.Machine

/-! ### Runs -/

theorem run_of_step {s u : State} (h : step s = .next u) (k : Nat) : run (k + 1) s = run k u := by
  rw [run, h]

/-- In `DONE` with no input left nothing moves. -/
theorem run_done {s : State} (hps : s.ps = .done) (hin : s.inputs = []) (k : Nat) : run k s = .next s := by
  induction k with
  | zero => rfl
  | succ k ih => rw [run_of_step (step_waiting hin (by simp [State.parserKey, hps])), ih]

/-- `t` is a state in which a decode begun with the frame, label, mode and records of `s` has ended with the Result `r`
(R148, R151). -/
def State.EndsDecode (s : State) (r : Result) (t : State) : Prop :=
  t.ps = .done ∧ t.inputs = [] ∧ t.fb = s.fb ∧ t.frameLength = s.frameLength ∧ t.label = s.label ∧ t.result = r ∧
    t.reportQ = match s.mode with
      | .process => s.reportQ ++ [Report.ofResult s.label r]
      | .summarize => s.reportQ

/-- The `DONE` entry action ends the decode with the Result the registers hold. -/
theorem endsDecode_enterDone {u : State} {r : Result} (hresult : u.result = r) (hin : u.inputs = []) :
    u.EndsDecode r (enterDone u) := by
  subst hresult
  exact ⟨rfl, hin, rfl, rfl, rfl, rfl, rfl⟩

/-- Two outcomes of one condition. -/
theorem endsDecode_ite {c : Prop} [Decidable c] {s t u : State} {r q : Result} (ht : c → s.EndsDecode r t)
    (hu : ¬ c → s.EndsDecode q u) : s.EndsDecode (if c then r else q) (if c then t else u) := by
  split_ifs with h
  · exact ht h
  · exact hu h

/-- `k` steps of the parser end the decode of `s` with the Result `r`. -/
def State.Decodes (k : Nat) (s : State) (r : Result) : Prop := ∃ t, run k s = .next t ∧ s.EndsDecode r t

/-- The last operation of a decode, with waiting steps behind it. -/
theorem decodes_of_last_step {s t : State} {r : Result} (h : step s = .next t) (ht : s.EndsDecode r t) (k : Nat) :
    s.Decodes (k + 1) r := by
  obtain ⟨hps, hin, -⟩ := id ht
  exact ⟨t, by rw [run_of_step h, run_done hps hin], ht⟩

/-- An operation before the last one, which leaves frame, label, mode and records for the rest of the decode. -/
theorem decodes_of_step {s u : State} {r : Result} {k : Nat} (h : step s = .next u)
    (hu : ∃ t, run k u = .next t ∧ s.EndsDecode r t) : s.Decodes (k + 1) r := by
  obtain ⟨t, hrun, ht⟩ := hu
  exact ⟨t, by rw [run_of_step h, hrun], ht⟩

/-! ### Layer 4 -/

/-- Every layer-4 outcome ends the decode; what differs is the status and the ports it leaves. -/
theorem endsDecode_l4 {s : State} (hin : s.inputs = []) (c : L4Status) (p : PortRegs) :
    s.EndsDecode { s.result with l4 := c, ports := validOnly c.hasPorts p }
      (enterDone { s with ports := p, l4Status := c }) :=
  endsDecode_enterDone (u := { s with ports := p, l4Status := c }) rfl hin

/-- The layer-4 events leave no ports (R112, R113). -/
theorem endsDecode_l4_event {s : State} (hin : s.inputs = []) (h4 : s.l4Status = .none) {c : L4Status}
    (hc : c.hasPorts = false) :
    s.EndsDecode { s.result with l4 := c } (enterDone { s with l4Status := c }) := by
  have hports : s.result.ports = none := by simp [State.result, h4, L4Status.hasPorts, validOnly]
  have h := endsDecode_l4 hin c s.ports
  rwa [hc, show validOnly false s.ports = s.result.ports from hports.symm] at h

theorem frameLayer4_tcp (fb : Memory) (flen : Nat) (r : Result) : frameLayer4 fb flen 6 r =
    if flen - r.off < 20 then { r with l4 := .malformed } else
      { r with l4 := .tcp, ports := some ⟨fb.field r.off 2, fb.field (r.off + 2) 2⟩ } := rfl

theorem frameLayer4_udp (fb : Memory) (flen : Nat) (r : Result) : frameLayer4 fb flen 17 r =
    if flen - r.off < 8 then { r with l4 := .malformed } else
      { r with l4 := .udp, ports := some ⟨fb.field r.off 2, fb.field (r.off + 2) 2⟩ } := rfl

theorem frameLayer4_other (fb : Memory) (flen : Nat) {key : BitVec 8} (r : Result) (htcp : key ≠ 6) (hudp : key ≠ 17) :
    frameLayer4 fb flen key r = { r with l4 := .unsupported } :=
  (if_neg htcp).trans (if_neg hudp)

/-- The resolver's operation is the layer-4 part of `Decode`. -/
theorem decodes_l4 {s : State} (hin : s.inputs = []) (hps : s.ps = .l4) (h4 : s.l4Status = .none) (k : Nat) :
    s.Decodes (k + 1) (frameLayer4 s.fb s.frameLength s.l4key s.result) := by
  have hstep : step s = exec (decodeLayer4 s.l4key) s :=
    step_of_key (k := .layer4 s.l4key) hin (by simp [State.parserKey, hps])
  have hmalformed := endsDecode_l4_event hin h4 (c := .malformed) rfl
  unfold decodeLayer4 at hstep
  split_ifs at hstep with htcp hudp
  · rw [htcp, frameLayer4_tcp]
    exact decodes_of_last_step (hstep.trans (exec_l4Tcp s))
      (endsDecode_ite (fun _ => hmalformed) fun _ => endsDecode_l4 hin .tcp _) k
  · rw [hudp, frameLayer4_udp]
    exact decodes_of_last_step (hstep.trans (exec_l4Udp s))
      (endsDecode_ite (fun _ => hmalformed) fun _ => endsDecode_l4 hin .udp _) k
  · rw [frameLayer4_other _ _ _ htcp hudp]
    exact decodes_of_last_step hstep (endsDecode_l4_event hin h4 rfl) k

/-! ### Layer 3 -/

/-- The layer-3 part of `Decode`: the arm the ethertype selects (R148). -/
def frameLayer3 (fb : Memory) (flen : Nat) (key : BitVec 16) (r : Result) : Result :=
  if key = 0x0800 then frameIpv4 fb flen r
  else if key = 0x86DD then frameIpv6 fb flen r
  else if key = 0x0806 then frameArp fb flen r
  else { r with l3 := .unsupported }

theorem decodeFrame_eq (fb : Memory) (flen : Nat) :
    decodeFrame fb flen = if flen < 14 then { Result.empty with l2 := .rejected } else
      frameLayer3 fb flen (fb.field 12 2)
        { Result.empty with l2 := .ok, eth := some ⟨fb.field 0 6, fb.field 6 6, fb.field 12 2⟩, off := 14 } := rfl

/-- What is known when a layer-3 operation starts (R120). -/
structure State.StartsL3 (s : State) : Prop where
  inputs : s.inputs = []
  ps : s.ps = .l3
  l3 : s.l3Status = .none
  l4 : s.l4Status = .none
  off : s.off = 14

/-- A layer-3 status that no group belongs to leaves the Result as it was but for the status (R124, R181). -/
theorem endsDecode_l3_event {s : State} (h : s.StartsL3) {c : L3Status} (hc : c = .malformed ∨ c = .unsupported) :
    s.EndsDecode { s.result with l3 := c } (enterDone { s with l3Status := c }) := by
  have hresult : ({ s with l3Status := c } : State).result = { s.result with l3 := c } := by
    obtain rfl | rfl := hc <;> simp [State.result, validOnly, h.l3, L3Status.hasPayload]
  exact (endsDecode_enterDone hresult h.inputs :)

theorem endsDecode_loadArp {s : State} (h : s.StartsL3) (p : ArpRegs) :
    s.EndsDecode { s.result with l3 := .arp, arp := some p, sum := .ofV4 p.spa p.tpa } (loadArp p s) := by
  have hresult : ({ s with arp := p, l3Status := .arp, sum := .ofV4 p.spa p.tpa } : State).result =
      { s.result with l3 := .arp, arp := some p, sum := .ofV4 p.spa p.tpa } := by
    simp [State.result, validOnly, h.l3, L3Status.hasPayload]
  exact (endsDecode_enterDone hresult h.inputs :)

/-- Behind a decoded IPv4 header the resolver has its protocol field as key (R121). -/
theorem decodes_loadIpv4 {s : State} (h : s.StartsL3) {p : Ip4Regs} {n : Nat} (hstep : step s = .next (loadIpv4 p n s))
    (k : Nat) : s.Decodes (k + 2) (frameLayer4 s.fb s.frameLength p.proto
      { s.result with l3 := .ipv4, ip4 := some p, sum := .ofV4 p.src p.dst, l4key := some p.proto, off := n }) := by
  have hresult : (loadIpv4 p n s).result =
      { s.result with l3 := .ipv4, ip4 := some p, sum := .ofV4 p.src p.dst, l4key := some p.proto, off := n } := by
    simp [State.result, validOnly, h.l3, h.l4, L3Status.hasPayload, L4Status.hasPorts]
  rw [← hresult]
  exact decodes_of_step hstep (decodes_l4 (s := loadIpv4 p n s) h.inputs rfl h.l4 k)

/-- Behind a decoded IPv6 header the resolver has its next-header field as key (R122). -/
theorem decodes_loadIpv6 {s : State} (h : s.StartsL3) {p : Ip6Regs} {n : Nat} (hstep : step s = .next (loadIpv6 p n s))
    (k : Nat) : s.Decodes (k + 2) (frameLayer4 s.fb s.frameLength p.nh
      { s.result with l3 := .ipv6, ip6 := some p, sum := .ofV6 p.src p.dst, l4key := some p.nh, off := n }) := by
  have hresult : (loadIpv6 p n s).result =
      { s.result with l3 := .ipv6, ip6 := some p, sum := .ofV6 p.src p.dst, l4key := some p.nh, off := n } := by
    simp [State.result, validOnly, h.l3, h.l4, L3Status.hasPayload, L4Status.hasPorts]
  rw [← hresult]
  exact decodes_of_step hstep (decodes_l4 (s := loadIpv6 p n s) h.inputs rfl h.l4 k)

/-- The IPv4 arm with its three causes of `MALFORMED` as one condition (R92). -/
theorem frameIpv4_eq (fb : Memory) (flen : Nat) (r : Result) : frameIpv4 fb flen r =
    let ihl := ihlOf (fb.field 14 1)
    let h : Ip4Regs := ⟨ihl, fb.field 16 2, fb.field 23 1, fb.field 26 4, fb.field 30 4⟩
    if flen - 14 < 20 ∨ ihl.toNat < 5 ∨ flen - 14 < 4 * ihl.toNat then { r with l3 := .malformed } else
      frameLayer4 fb flen h.proto
        { r with
          l3 := .ipv4, ip4 := some h, sum := .ofV4 h.src h.dst, l4key := some h.proto, off := 14 + 4 * ihl.toNat } := by
  unfold frameIpv4
  by_cases hshort : flen - 14 < 20 <;> simp [hshort]

theorem decodes_ipv4 {s : State} (h : s.StartsL3) (hstep : step s = exec .l3Ipv4 s) (k : Nat) :
    s.Decodes (k + 2) (frameIpv4 s.fb s.frameLength s.result) := by
  rw [exec_l3Ipv4, h.off] at hstep
  rw [frameIpv4_eq]
  dsimp only at hstep ⊢
  split_ifs at hstep ⊢
  · exact decodes_of_last_step hstep (endsDecode_l3_event h (.inl rfl)) (k + 1)
  · exact decodes_loadIpv4 h hstep k

theorem decodes_ipv6 {s : State} (h : s.StartsL3) (hstep : step s = exec .l3Ipv6 s) (k : Nat) :
    s.Decodes (k + 2) (frameIpv6 s.fb s.frameLength s.result) := by
  rw [exec_l3Ipv6, h.off] at hstep
  unfold frameIpv6
  split_ifs at hstep ⊢
  · exact decodes_of_last_step hstep (endsDecode_l3_event h (.inl rfl)) (k + 1)
  · exact decodes_loadIpv6 h hstep k

theorem decodes_arp {s : State} (h : s.StartsL3) (hstep : step s = exec .l3Arp s) (k : Nat) :
    s.Decodes (k + 1) (frameArp s.fb s.frameLength s.result) := by
  rw [exec_l3Arp, h.off] at hstep
  exact decodes_of_last_step hstep
    (endsDecode_ite (fun _ => endsDecode_l3_event h (.inl rfl)) fun _ => endsDecode_loadArp h _) k

/-- The dispatcher's operation and the resolver's are the layer-3 part of `Decode`. -/
theorem decodes_l3 {s : State} (h : s.StartsL3) (k : Nat) :
    s.Decodes (k + 2) (frameLayer3 s.fb s.frameLength s.eth.etherType s.result) := by
  have hstep : step s = exec (decodeLayer3 s.eth.etherType) s :=
    step_of_key (k := .layer3 s.eth.etherType) h.inputs (by simp [State.parserKey, h.ps])
  unfold decodeLayer3 at hstep
  unfold frameLayer3
  split_ifs at hstep ⊢
  · exact decodes_ipv4 h hstep k
  · exact decodes_ipv6 h hstep k
  · exact decodes_arp h hstep (k + 1)
  · exact decodes_of_last_step hstep (endsDecode_l3_event h (.inr rfl)) (k + 1)

/-! ### Layer 2 and the command -/

/-- A rejected frame leaves nothing but its status (R182). -/
theorem endsDecode_rejected {s : State} (hin : s.inputs = []) (hresult : s.result = .empty) :
    s.EndsDecode { Result.empty with l2 := .rejected } (raiseEvent .rejected { s with off := 0 }) := by
  have hrejected : ({ s with off := 0, l2Status := .rejected } : State).result = { Result.empty with l2 := .rejected } :=
    congrArg (fun r : Result => { r with l2 := .rejected, off := 0, eth := none }) hresult
  exact (endsDecode_enterDone hrejected hin :)

/-- From `L2` with nothing decoded the parser computes `Decode` (R148). -/
theorem decodes_l2 {s : State} (hin : s.inputs = []) (hps : s.ps = .l2) (hresult : s.result = .empty) (k : Nat) :
    s.Decodes (k + 3) (decodeFrame s.fb s.frameLength) := by
  have hstep : step s = exec .l2Eth s := step_of_key (k := .layer2) hin (by simp [State.parserKey, hps])
  rw [exec_l2Eth] at hstep
  rw [decodeFrame_eq]
  split_ifs at hstep ⊢
  · exact decodes_of_last_step hstep (endsDecode_rejected hin hresult) (k + 2)
  · rw [← hresult]
    have hl3 : s.l3Status = .none := congrArg Result.l3 hresult
    have hl4 : s.l4Status = .none := congrArg Result.l4 hresult
    exact decodes_of_step hstep (decodes_l3 (s := loadEth _ 14 s) ⟨hin, rfl, hl3, hl4, rfl⟩ k)

/-- `CMD` bit 0 is the mode (R16, R70). -/
def modeOfBit (b : BitVec 1) : Mode := if b = 0 then .summarize else .process

theorem exec_command (mode : BitVec 1) (label : Label) (above : Nat) (s : State) :
    exec (decode (.command mode label above)) s = .next (acceptCommand (modeOfBit mode) label s) := by
  unfold modeOfBit
  rw [decode, decodeCommand]
  split_ifs
  · exact exec_cmdSummarize label s
  · exact exec_cmdProcess label s

/-- Nothing is decoded after `START` (R144). -/
theorem result_startCommand (m : Mode) (l : Label) (s : State) : (startCommand m l s).result = .empty := rfl

/-- An accepted command, run to `DONE`, leaves the Result of the pure function (R148). -/
theorem run_command_decodes (s : State) (mode : BitVec 1) (label : Label) (above : Nat) (hps : s.ps = .idle ∨ s.ps = .done) :
    ∃ t, run 4 { s with inputs := [.host (.writeCmd mode label above)] } = .next t ∧
      ({ s with mode := modeOfBit mode, label := label } : State).EndsDecode (decodeFrame s.fb s.frameLength) t := by
  have hwaiting : ({ s with inputs := [] } : State).ps.busy = false := by
    obtain hps | hps := hps <;> simp [hps, ParserState.busy]
  have hstep : step { s with inputs := [.host (.writeCmd mode label above)] } =
      .next (startCommand (modeOfBit mode) label { s with inputs := [] }) := by
    rw [step_command, exec_command, acceptCommand_waiting hwaiting]
  obtain ⟨t, hrun, ht⟩ := decodes_l2 (s := startCommand (modeOfBit mode) label { s with inputs := [] }) rfl rfl
    (result_startCommand _ _ _) 0
  exact ⟨t, by rw [run_of_step hstep, hrun], ht⟩

end Sys2Proof.Machine
end

/-! ## What of the frame the Result depends on (R46)

No field lies above offset 77 and every length is compared with at most 94: the last header can begin at offset 74 and is looked at
for 20 bytes. -/

section
namespace Sys2Proof.Machine

/-- Two frames that no decode can tell apart: the bytes inside them agree up to offset 77, and the lengths up to 94 (R46). -/
structure FramesAgree (fb₁ fb₂ : Memory) (n₁ n₂ : Nat) : Prop where
  length : n₁ = n₂ ∨ 94 ≤ n₁ ∧ 94 ≤ n₂
  bytes : ∀ a, a < n₁ → a ≤ 77 → fb₁.read a = fb₂.read a

variable {fb₁ fb₂ : Memory} {n₁ n₂ : Nat}

theorem FramesAgree.field (h : FramesAgree fb₁ fb₂ n₁ n₂) {addr n : Nat} (hinside : addr + n ≤ n₁) (hlow : addr + n ≤ 78) :
    fb₁.field addr n = fb₂.field addr n :=
  Memory.field_congr fun a _ ha => h.bytes a (by omega) (by omega)

theorem FramesAgree.avail (h : FramesAgree fb₁ fb₂ n₁ n₂) {base k : Nat} (hk : base + k ≤ 94) :
    n₁ - base < k ↔ n₂ - base < k := by
  have hlength := h.length
  omega

theorem frameLayer4_congr (h : FramesAgree fb₁ fb₂ n₁ n₂) (key : BitVec 8) {r : Result} (hoff : r.off ≤ 74) :
    frameLayer4 fb₁ n₁ key r = frameLayer4 fb₂ n₂ key r := by
  by_cases htcp : key = 6
  · rw [htcp, frameLayer4_tcp, frameLayer4_tcp]
    simp only [← h.avail (show r.off + 20 ≤ 94 by omega)]
    split_ifs
    · rfl
    · rw [h.field, h.field] <;> omega
  by_cases hudp : key = 17
  · rw [hudp, frameLayer4_udp, frameLayer4_udp]
    simp only [← h.avail (show r.off + 8 ≤ 94 by omega)]
    split_ifs
    · rfl
    · rw [h.field, h.field] <;> omega
  · rw [frameLayer4_other _ _ _ htcp hudp, frameLayer4_other _ _ _ htcp hudp]

theorem frameIpv4_congr (h : FramesAgree fb₁ fb₂ n₁ n₂) (r : Result) : frameIpv4 fb₁ n₁ r = frameIpv4 fb₂ n₂ r := by
  have hshort : n₁ - 14 < 20 ↔ n₂ - 14 < 20 := h.avail (by omega)
  rw [frameIpv4_eq, frameIpv4_eq]
  by_cases hlt : n₁ - 14 < 20
  · simp only [hlt, ← hshort, true_or, if_true]
  have hfield (a n : Nat) (ha : a + n ≤ 34) : fb₁.field a n = fb₂.field a n := h.field (by omega) (by omega)
  have hihl := (ihlOf (fb₂.field 14 1)).isLt
  have hheader := h.avail (show 14 + 4 * (ihlOf (fb₂.field 14 1)).toNat ≤ 94 by omega)
  simp (disch := decide) only [hfield, ← hshort, ← hheader]
  split_ifs
  · rfl
  · exact frameLayer4_congr h _ (show 14 + 4 * (ihlOf (fb₂.field 14 1)).toNat ≤ 74 by omega)

theorem frameIpv6_congr (h : FramesAgree fb₁ fb₂ n₁ n₂) (r : Result) : frameIpv6 fb₁ n₁ r = frameIpv6 fb₂ n₂ r := by
  unfold frameIpv6
  simp only [← h.avail (show 14 + 40 ≤ 94 by omega)]
  split_ifs
  · rfl
  · have hfield (a n : Nat) (ha : a + n ≤ 54) : fb₁.field a n = fb₂.field a n := h.field (by omega) (by omega)
    simp (disch := decide) only [hfield]
    exact frameLayer4_congr h _ (show 54 ≤ 74 by decide)

theorem frameArp_congr (h : FramesAgree fb₁ fb₂ n₁ n₂) (r : Result) : frameArp fb₁ n₁ r = frameArp fb₂ n₂ r := by
  unfold frameArp
  simp only [← h.avail (show 14 + 28 ≤ 94 by omega)]
  split_ifs
  · rfl
  · have hfield (a n : Nat) (ha : a + n ≤ 42) : fb₁.field a n = fb₂.field a n := h.field (by omega) (by omega)
    simp (disch := decide) only [hfield]

theorem frameLayer3_congr (h : FramesAgree fb₁ fb₂ n₁ n₂) (key : BitVec 16) (r : Result) :
    frameLayer3 fb₁ n₁ key r = frameLayer3 fb₂ n₂ key r := by
  unfold frameLayer3
  rw [frameIpv4_congr h, frameIpv6_congr h, frameArp_congr h]

/-- The Result depends on the bytes inside the frame up to offset 77 and on the length up to 94 (R46). -/
theorem decodeFrame_congr (h : FramesAgree fb₁ fb₂ n₁ n₂) : decodeFrame fb₁ n₁ = decodeFrame fb₂ n₂ := by
  have hlength : n₁ < 14 ↔ n₂ < 14 := h.avail (base := 0) (by omega)
  rw [decodeFrame_eq, decodeFrame_eq]
  simp only [← hlength]
  split_ifs
  · rfl
  · have hfield (a n : Nat) (ha : a + n ≤ 14) : fb₁.field a n = fb₂.field a n := h.field (by omega) (by omega)
    simp (disch := decide) only [hfield]
    exact frameLayer3_congr h _ _

end Sys2Proof.Machine
end

/-! ## A long frame decodes as its first 94 bytes -/

section
namespace Sys2Proof.Machine

/-- Settles O33: both runs compute `Decode`, which cannot tell the two frames apart. -/
theorem longFramesDecodeAsTheirPrefix : Obligations.LongFramesDecodeAsTheirPrefix := by
  intro s₁ s₂ m₁ m₂ l₁ l₂ a₁ a₂ hps₁ hps₂ hlength hbytes
  obtain ⟨t₁, hrun₁, hdone₁, -, -, -, -, hresult₁, -⟩ := run_command_decodes s₁ m₁ l₁ a₁ hps₁
  obtain ⟨t₂, hrun₂, hdone₂, -, -, -, -, hresult₂, -⟩ := run_command_decodes s₂ m₂ l₂ a₂ hps₂
  have hagree : FramesAgree s₁.fb s₂.fb s₁.frameLength s₂.frameLength := ⟨hlength, fun a _ ha => hbytes a ha⟩
  exact ⟨t₁, t₂, hrun₁, hrun₂, hdone₁, hdone₂, by rw [hresult₁, hresult₂, decodeFrame_congr hagree]⟩

end Sys2Proof.Machine
end

/-! ## Keys and operations (R68 to R72)

Which row of its dispatch table a key selects, once per table; the statements about `decode` and `encode` follow row by row. -/

section
namespace Sys2Proof

theorem mem_listedEtherTypes {k : BitVec 16} : k ∈ listedEtherTypes ↔ k = 0x0800 ∨ k = 0x86DD ∨ k = 0x0806 := by
  simp [listedEtherTypes]

theorem mem_listedProtocols {k : BitVec 8} : k ∈ listedProtocols ↔ k = 6 ∨ k = 17 := by
  simp [listedProtocols]

theorem wellFormed_l3Other {k : BitVec 16} : (Instr.l3Other k).wellFormed = true ↔ k ∉ listedEtherTypes := by
  simp [Instr.wellFormed]

theorem wellFormed_l4Other {k : BitVec 8} : (Instr.l4Other k).wellFormed = true ↔ k ∉ listedProtocols := by
  simp [Instr.wellFormed]

/-- The rows of the layer-3 table: three exact codes and the default row (R68, R71). -/
theorem decodeLayer3_cases (k : BitVec 16) :
    (k = Config.etypeIpv4 ∧ decodeLayer3 k = .l3Ipv4) ∨ (k = Config.etypeIpv6 ∧ decodeLayer3 k = .l3Ipv6) ∨
    (k = Config.etypeArp ∧ decodeLayer3 k = .l3Arp) ∨ (k ∉ listedEtherTypes ∧ decodeLayer3 k = .l3Other k) := by
  unfold decodeLayer3
  split_ifs with h4 h6 ha
  · exact .inl ⟨h4, rfl⟩
  · exact .inr (.inl ⟨h6, rfl⟩)
  · exact .inr (.inr (.inl ⟨ha, rfl⟩))
  · exact .inr (.inr (.inr ⟨by simpa [mem_listedEtherTypes] using ⟨h4, h6, ha⟩, rfl⟩))

/-- The rows of the layer-4 table: two exact codes and the default row (R69, R71). -/
theorem decodeLayer4_cases (k : BitVec 8) :
    (k = Config.protoTcp ∧ decodeLayer4 k = .l4Tcp) ∨ (k = Config.protoUdp ∧ decodeLayer4 k = .l4Udp) ∨
    (k ∉ listedProtocols ∧ decodeLayer4 k = .l4Other k) := by
  unfold decodeLayer4
  split_ifs with htcp hudp
  · exact .inl ⟨htcp, rfl⟩
  · exact .inr (.inl ⟨hudp, rfl⟩)
  · exact .inr (.inr ⟨by simpa [mem_listedProtocols] using ⟨htcp, hudp⟩, rfl⟩)

theorem decodeLayer3_default {k : BitVec 16} (h : k ∉ listedEtherTypes) : decodeLayer3 k = .l3Other k := by
  obtain ⟨rfl, -⟩ | ⟨rfl, -⟩ | ⟨rfl, -⟩ | ⟨-, hdefault⟩ := decodeLayer3_cases k
  · exact absurd (by decide) h
  · exact absurd (by decide) h
  · exact absurd (by decide) h
  · exact hdefault

theorem decodeLayer4_default {k : BitVec 8} (h : k ∉ listedProtocols) : decodeLayer4 k = .l4Other k := by
  obtain ⟨rfl, -⟩ | ⟨rfl, -⟩ | ⟨-, hdefault⟩ := decodeLayer4_cases k
  · exact absurd (by decide) h
  · exact absurd (by decide) h
  · exact hdefault

/-- A layer-3 key selects a well-formed operation that encodes to it. -/
theorem encode_decodeLayer3 (k : BitVec 16) : (decodeLayer3 k).wellFormed = true ∧ encode (decodeLayer3 k) = .layer3 k := by
  obtain ⟨rfl, h⟩ | ⟨rfl, h⟩ | ⟨rfl, h⟩ | ⟨hk, h⟩ := decodeLayer3_cases k <;> rw [h]
  · exact ⟨rfl, rfl⟩
  · exact ⟨rfl, rfl⟩
  · exact ⟨rfl, rfl⟩
  · exact ⟨wellFormed_l3Other.mpr hk, rfl⟩

/-- A layer-4 key selects a well-formed operation that encodes to it. -/
theorem encode_decodeLayer4 (k : BitVec 8) : (decodeLayer4 k).wellFormed = true ∧ encode (decodeLayer4 k) = .layer4 k := by
  obtain ⟨rfl, h⟩ | ⟨rfl, h⟩ | ⟨hk, h⟩ := decodeLayer4_cases k <;> rw [h]
  · exact ⟨rfl, rfl⟩
  · exact ⟨rfl, rfl⟩
  · exact ⟨wellFormed_l4Other.mpr hk, rfl⟩

/-- Settles O1: row by row of the two layer tables. -/
theorem everyKeySelectsItsRow : Obligations.EveryKeySelectsItsRow := by
  refine ⟨fun _ _ => rfl, fun _ _ => rfl, rfl, fun k => ?_, fun k => ?_⟩
  · rw [show decode (.layer3 k) = decodeLayer3 k from rfl]
    obtain ⟨rfl, h⟩ | ⟨rfl, h⟩ | ⟨rfl, h⟩ | ⟨hk, h⟩ := decodeLayer3_cases k
    · rw [h]; simp
    · rw [h]; simp
    · rw [h]; simp
    · rw [mem_listedEtherTypes, not_or, not_or] at hk
      obtain ⟨h4, h6, ha⟩ := hk
      rw [h]
      exact ⟨iff_of_false nofun h4, iff_of_false nofun h6, iff_of_false nofun ha, iff_of_true rfl ⟨h4, h6, ha⟩⟩
  · rw [show decode (.layer4 k) = decodeLayer4 k from rfl]
    obtain ⟨rfl, h⟩ | ⟨rfl, h⟩ | ⟨hk, h⟩ := decodeLayer4_cases k
    · rw [h]; simp
    · rw [h]; simp
    · rw [mem_listedProtocols, not_or] at hk
      obtain ⟨htcp, hudp⟩ := hk
      rw [h]
      exact ⟨iff_of_false nofun htcp, iff_of_false nofun hudp, iff_of_true rfl ⟨htcp, hudp⟩⟩

/-- Settles O2: a row with a code of its own by evaluation, a default row because its key is none of the listed codes. -/
theorem decodeOfEncodeIsTheOperation : Obligations.DecodeOfEncodeIsTheOperation := by
  intro i hi
  cases i with
  | l3Other k => exact decodeLayer3_default (wellFormed_l3Other.mp hi)
  | l4Other k => exact decodeLayer4_default (wellFormed_l4Other.mp hi)
  | _ => rfl

/-- Settles O3, key space by key space. -/
theorem encodeOfDecodeIsTheKey : Obligations.EncodeOfDecodeIsTheKey := by
  intro k
  cases k with
  | command mode label above =>
    obtain rfl | rfl := BitVec.eq_zero_or_eq_one mode
    · exact ⟨rfl, rfl⟩
    · exact ⟨rfl, rfl⟩
  | layer2 => exact ⟨rfl, rfl⟩
  | layer3 k => exact encode_decodeLayer3 k
  | layer4 k => exact encode_decodeLayer4 k

/-- Settles O4: each of the eight words evaluates. -/
theorem tableWordsDecode : Obligations.TableWordsDecode := ⟨rfl, rfl, rfl, rfl, rfl, rfl, rfl, rfl⟩

end Sys2Proof
end

/-! ## The header formats read back (R61 to R66)

A byte string that stands in the frame buffer is split along `++` into its fields, and a field of `n` bytes reads as the number
it was written from. Each format then has one lemma with the fields it shows; the views and `Decode` read them from there. -/

section
namespace Sys2Proof.Machine

/-! ### Byte strings in the frame buffer -/

@[simp] theorem bytesOf_length (n v : Nat) : (bytesOf n v).length = n := by
  induction n generalizing v with
  | zero => rfl
  | succ n ih => simp [bytesOf, ih]

/-- From offset `a` the frame buffer holds the byte string `bs`. -/
def Memory.HoldsAt (m : Memory) (a : Nat) (bs : List Byte) : Prop :=
  ∀ i b, bs[i]? = some b → m.read (a + i) = b

theorem Memory.holdsAt_load (m : Memory) (a : Nat) (bs : List Byte) : (m.load a bs).HoldsAt a bs := by
  intro i b hb
  simp [Memory.read_load, hb]

theorem Memory.holdsAt_append {m : Memory} {a : Nat} {xs ys : List Byte} :
    m.HoldsAt a (xs ++ ys) ↔ m.HoldsAt a xs ∧ m.HoldsAt (a + xs.length) ys := by
  constructor
  · intro h
    refine ⟨fun i b hb => h i b ?_, fun i b hb => ?_⟩
    · rw [List.getElem?_append_left (List.getElem?_eq_some_iff.mp hb).1, hb]
    · rw [Nat.add_assoc]
      exact h _ b (by rw [List.getElem?_append_right (Nat.le_add_right ..), Nat.add_sub_cancel_left, hb])
  · rintro ⟨hxs, hys⟩ i b hb
    rcases Nat.lt_or_ge i xs.length with hi | hi
    · exact hxs i b (by rwa [List.getElem?_append_left hi] at hb)
    · have hread := hys (i - xs.length) b (by rwa [List.getElem?_append_right hi] at hb)
      rwa [show a + xs.length + (i - xs.length) = a + i by omega] at hread

/-- A header inside a loaded frame stands behind what precedes it. -/
theorem Memory.holdsAt_load_middle (m : Memory) (pre bs post : List Byte) :
    (m.load 0 (pre ++ bs ++ post)).HoldsAt pre.length bs := by
  have hload := m.holdsAt_load 0 (pre ++ bs ++ post)
  rw [Memory.holdsAt_append, Memory.holdsAt_append, Nat.zero_add] at hload
  obtain ⟨⟨-, hmiddle⟩, -⟩ := hload
  exact hmiddle

/-- Reading `n` bytes gives back the number they were written from, modulo what they can hold (R42). -/
theorem Memory.bigEndian_of_holdsAt {m : Memory} {a n v : Nat} (h : m.HoldsAt a (bytesOf n v)) :
    m.bigEndian a n = v % 256 ^ n := by
  induction n generalizing v with
  | zero => simp [Memory.bigEndian, Nat.mod_one]
  | succ n ih =>
    rw [bytesOf, Memory.holdsAt_append, bytesOf_length] at h
    obtain ⟨hhigh, hlow⟩ := h
    have hbyte : m.read (a + n) = BitVec.ofNat 8 v := hlow 0 _ rfl
    rw [Memory.bigEndian, ih hhigh, hbyte, BitVec.toNat_ofNat, pow_succ' 256, Nat.mod_mul, Nat.add_comm, Nat.mul_comm]

theorem Memory.field_of_holdsAt_ofNat {m : Memory} {a n v : Nat} (h : m.HoldsAt a (bytesOf n v)) :
    m.field a n = BitVec.ofNat (8 * n) v := by
  apply BitVec.eq_of_toNat_eq
  rw [Memory.field_toNat, Memory.bigEndian_of_holdsAt h, BitVec.toNat_ofNat, pow_mul, show 2 ^ 8 = 256 from rfl]

/-- A field written from a word reads as that word. -/
theorem Memory.field_of_holdsAt {m : Memory} {a n : Nat} {v : BitVec (8 * n)} (h : m.HoldsAt a (bytesOf n v.toNat)) :
    m.field a n = v := by
  rw [Memory.field_of_holdsAt_ofNat h, BitVec.ofNat_toNat, BitVec.setWidth_eq]

/-! ### The fields of each format -/

@[simp] theorem EthLine.bytes_length (l : EthLine) : l.bytes.length = 14 := by simp [EthLine.bytes]

@[simp] theorem Ipv6Line.bytes_length (l : Ipv6Line) : l.bytes.length = 40 := by simp [Ipv6Line.bytes]

@[simp] theorem ArpLine.bytes_length (l : ArpLine) : l.bytes.length = 28 := by simp [ArpLine.bytes]

@[simp] theorem TcpLine.bytes_length (l : TcpLine) : l.bytes.length = 20 := by simp [TcpLine.bytes]

@[simp] theorem UdpLine.bytes_length (l : UdpLine) : l.bytes.length = 8 := by simp [UdpLine.bytes]

/-- With its options an IPv4 header is as long as its `IHL` says (R62, R67). -/
theorem Ipv4Line.bytes_length {l : Ipv4Line} (hwf : l.wellFormed = true) (hihl : 5 ≤ l.ihl.toNat) :
    l.bytes.length = 4 * l.ihl.toNat := by
  have hopts : l.opts.length = 4 * l.ihl.toNat - 20 := by simpa [Ipv4Line.wellFormed] using hwf
  simp only [Ipv4Line.bytes, List.length_append, bytesOf_length, hopts]
  omega

/-- The low nibble of the version and IHL byte (R62, R67). -/
theorem ihlOf_ofNat (ver ihl : BitVec 4) : ihlOf (BitVec.ofNat 8 (ver.toNat * 16 + ihl.toNat)) = ihl := by
  apply BitVec.eq_of_toNat_eq
  rw [ihlOf, BitVec.extractLsb'_toNat, BitVec.toNat_ofNat]
  omega

theorem EthLine.fields_of_holdsAt {m : Memory} {a : Nat} {l : EthLine} (h : m.HoldsAt a l.bytes) :
    m.field a 6 = l.dst ∧ m.field (a + 6) 6 = l.src ∧ m.field (a + 12) 2 = l.etherType := by
  simp only [EthLine.bytes, Memory.holdsAt_append, List.length_append, bytesOf_length, Nat.reduceAdd] at h
  obtain ⟨⟨hdst, hsrc⟩, htype⟩ := h
  exact ⟨Memory.field_of_holdsAt hdst, Memory.field_of_holdsAt hsrc, Memory.field_of_holdsAt htype⟩

/-- The version, TOS, identification, fragment, TTL and checksum fields do not show (R92). -/
theorem Ipv4Line.fields_of_holdsAt {m : Memory} {a : Nat} {l : Ipv4Line} (h : m.HoldsAt a l.bytes) :
    ihlOf (m.field a 1) = l.ihl ∧ m.field (a + 2) 2 = l.len ∧ m.field (a + 9) 1 = l.proto ∧
      m.field (a + 12) 4 = l.src ∧ m.field (a + 16) 4 = l.dst := by
  simp only [Ipv4Line.bytes, Memory.holdsAt_append, List.length_append, bytesOf_length, Nat.reduceAdd] at h
  obtain ⟨⟨⟨⟨⟨⟨⟨⟨⟨⟨hfirst, -⟩, hlen⟩, -⟩, -⟩, -⟩, hproto⟩, -⟩, hsrc⟩, hdst⟩, -⟩ := h
  refine ⟨?_, Memory.field_of_holdsAt hlen, Memory.field_of_holdsAt hproto, Memory.field_of_holdsAt hsrc,
    Memory.field_of_holdsAt hdst⟩
  rw [Memory.field_of_holdsAt_ofNat hfirst]
  exact ihlOf_ofNat l.ver l.ihl

theorem Ipv6Line.fields_of_holdsAt {m : Memory} {a : Nat} {l : Ipv6Line} (h : m.HoldsAt a l.bytes) :
    m.field (a + 4) 2 = l.plen ∧ m.field (a + 6) 1 = l.nh ∧ m.field (a + 8) 16 = l.src ∧ m.field (a + 24) 16 = l.dst := by
  simp only [Ipv6Line.bytes, Memory.holdsAt_append, List.length_append, bytesOf_length, Nat.reduceAdd] at h
  obtain ⟨⟨⟨⟨⟨-, hplen⟩, hnh⟩, -⟩, hsrc⟩, hdst⟩ := h
  exact ⟨Memory.field_of_holdsAt hplen, Memory.field_of_holdsAt hnh, Memory.field_of_holdsAt hsrc,
    Memory.field_of_holdsAt hdst⟩

theorem ArpLine.fields_of_holdsAt {m : Memory} {a : Nat} {l : ArpLine} (h : m.HoldsAt a l.bytes) :
    m.field a 2 = l.htype ∧ m.field (a + 5) 1 = l.plen ∧ m.field (a + 6) 2 = l.op ∧ m.field (a + 8) 6 = l.sha ∧
      m.field (a + 14) 4 = l.spa ∧ m.field (a + 18) 6 = l.tha ∧ m.field (a + 24) 4 = l.tpa := by
  simp only [ArpLine.bytes, Memory.holdsAt_append, List.length_append, bytesOf_length, Nat.reduceAdd] at h
  obtain ⟨⟨⟨⟨⟨⟨⟨⟨hhtype, -⟩, -⟩, hplen⟩, hop⟩, hsha⟩, hspa⟩, htha⟩, htpa⟩ := h
  exact ⟨Memory.field_of_holdsAt hhtype, Memory.field_of_holdsAt hplen, Memory.field_of_holdsAt hop,
    Memory.field_of_holdsAt hsha, Memory.field_of_holdsAt hspa, Memory.field_of_holdsAt htha, Memory.field_of_holdsAt htpa⟩

theorem TcpLine.fields_of_holdsAt {m : Memory} {a : Nat} {l : TcpLine} (h : m.HoldsAt a l.bytes) :
    m.field a 2 = l.sport ∧ m.field (a + 2) 2 = l.dport := by
  simp only [TcpLine.bytes, Memory.holdsAt_append, List.length_append, bytesOf_length] at h
  obtain ⟨⟨⟨⟨⟨⟨⟨⟨hsport, hdport⟩, -⟩, -⟩, -⟩, -⟩, -⟩, -⟩, -⟩ := h
  exact ⟨Memory.field_of_holdsAt hsport, Memory.field_of_holdsAt hdport⟩

theorem UdpLine.fields_of_holdsAt {m : Memory} {a : Nat} {l : UdpLine} (h : m.HoldsAt a l.bytes) :
    m.field a 2 = l.sport ∧ m.field (a + 2) 2 = l.dport := by
  simp only [UdpLine.bytes, Memory.holdsAt_append, List.length_append, bytesOf_length] at h
  obtain ⟨⟨⟨hsport, hdport⟩, -⟩, -⟩ := h
  exact ⟨Memory.field_of_holdsAt hsport, Memory.field_of_holdsAt hdport⟩

/-! ### The statements -/

/-- Behind what precedes a header there are at least as many bytes as the header has (R90). -/
theorem length_le_available (pre bs post : List Byte) : bs.length ≤ (pre ++ bs ++ post).length - pre.length := by
  simp only [List.length_append]
  omega

/-- Settles O9: 14 bytes are there, and the three fields stand where the view reads them (R91). -/
theorem ethernetHeaderReadsBack : Obligations.EthernetHeaderReadsBack := by
  intro m l pre post
  have havail := length_le_available pre l.bytes post
  rw [EthLine.bytes_length] at havail
  obtain ⟨hdst, hsrc, htype⟩ := EthLine.fields_of_holdsAt (m.holdsAt_load_middle pre l.bytes post)
  rw [viewEth_eq, if_neg (by omega), hdst, hsrc, htype]

/-- Settles O10: none of the three causes of an invalid header applies (R92). -/
theorem ipv4HeaderReadsBack : Obligations.Ipv4HeaderReadsBack := by
  intro m l pre post hwf hihl
  have havail := length_le_available pre l.bytes post
  rw [Ipv4Line.bytes_length hwf hihl] at havail
  obtain ⟨hfirst, hlen, hproto, hsrc, hdst⟩ := Ipv4Line.fields_of_holdsAt (m.holdsAt_load_middle pre l.bytes post)
  rw [viewIpv4_eq, hfirst, hlen, hproto, hsrc, hdst]
  exact congrArg Except.ok (if_neg (by omega))

/-- Settles O11: 40 bytes are there, and the four fields stand where the view reads them (R93). -/
theorem ipv6HeaderReadsBack : Obligations.Ipv6HeaderReadsBack := by
  intro m l pre post
  have havail := length_le_available pre l.bytes post
  rw [Ipv6Line.bytes_length] at havail
  obtain ⟨hplen, hnh, hsrc, hdst⟩ := Ipv6Line.fields_of_holdsAt (m.holdsAt_load_middle pre l.bytes post)
  rw [viewIpv6_eq, if_neg (by omega), hplen, hnh, hsrc, hdst]

/-- Settles O12: 28 bytes are there, and the view takes the places of the fields from the layout alone (R94). -/
theorem arpPacketReadsBack : Obligations.ArpPacketReadsBack := by
  intro m l pre post
  have havail := length_le_available pre l.bytes post
  rw [ArpLine.bytes_length] at havail
  obtain ⟨hhtype, hplen, hop, hsha, hspa, htha, htpa⟩ :=
    ArpLine.fields_of_holdsAt (m.holdsAt_load_middle pre l.bytes post)
  rw [viewArp_eq, if_neg (by omega), hhtype, hplen, hop, hsha, hspa, htha, htpa]

/-- Settles O13: the whole fixed header is there, and the ports are its first two fields (R95, R96). -/
theorem transportHeadersReadBack : Obligations.TransportHeadersReadBack := by
  constructor
  · intro m l pre post
    have havail := length_le_available pre l.bytes post
    rw [TcpLine.bytes_length] at havail
    obtain ⟨hsport, hdport⟩ := TcpLine.fields_of_holdsAt (m.holdsAt_load_middle pre l.bytes post)
    rw [viewTcp_eq, if_neg (by omega), hsport, hdport]
  · intro m l pre post
    have havail := length_le_available pre l.bytes post
    rw [UdpLine.bytes_length] at havail
    obtain ⟨hsport, hdport⟩ := UdpLine.fields_of_holdsAt (m.holdsAt_load_middle pre l.bytes post)
    rw [viewUdp_eq, if_neg (by omega), hsport, hdport]

/-! ### A whole frame -/

/-- The layer-4 part of `Decode` at a TCP header. -/
theorem frameLayer4_of_tcpLine {m : Memory} {flen : Nat} {r : Result} {p : TcpLine} (h : m.HoldsAt r.off p.bytes)
    (hlen : r.off + 20 ≤ flen) :
    frameLayer4 m flen 6 r = { r with l4 := .tcp, ports := some ⟨p.sport, p.dport⟩ } := by
  obtain ⟨hsport, hdport⟩ := TcpLine.fields_of_holdsAt h
  rw [frameLayer4_tcp, if_neg (by omega), hsport, hdport]

theorem frameLayer3_ipv4 (fb : Memory) (flen : Nat) (r : Result) :
    frameLayer3 fb flen 0x0800 r = frameIpv4 fb flen r := if_pos rfl

/-- The IPv4 arm of `Decode` at a header of this format. -/
theorem frameIpv4_of_ipv4Line {m : Memory} {flen : Nat} (r : Result) {l : Ipv4Line} (h : m.HoldsAt 14 l.bytes)
    (hihl : 5 ≤ l.ihl.toNat) (hlen : 14 + 4 * l.ihl.toNat ≤ flen) :
    frameIpv4 m flen r = frameLayer4 m flen l.proto { r with
      l3 := .ipv4, ip4 := some ⟨l.ihl, l.len, l.proto, l.src, l.dst⟩, sum := .ofV4 l.src l.dst, l4key := some l.proto
      off := 14 + 4 * l.ihl.toNat } := by
  obtain ⟨hfirst, htotlen, hproto, hsrc, hdst⟩ := Ipv4Line.fields_of_holdsAt h
  rw [frameIpv4_eq, hfirst, htotlen, hproto, hsrc, hdst]
  exact if_neg (by omega)

/-- `Decode` at an Ethernet header. -/
theorem decodeFrame_of_ethLine {m : Memory} {flen : Nat} {e : EthLine} (h : m.HoldsAt 0 e.bytes) (hlen : 14 ≤ flen) :
    decodeFrame m flen = frameLayer3 m flen e.etherType
      { Result.empty with l2 := .ok, eth := some ⟨e.dst, e.src, e.etherType⟩, off := 14 } := by
  obtain ⟨hdst, hsrc, htype⟩ := EthLine.fields_of_holdsAt h
  rw [Nat.zero_add] at hsrc htype
  rw [decodeFrame_eq, if_neg (by omega), hdst, hsrc, htype]

/-- Settles O36: the three headers stand one behind the other, and each layer of `Decode` reads its own. -/
theorem ethernetIpv4TcpFrameDecodes : Obligations.EthernetIpv4TcpFrameDecodes := by
  intro m e l p payload htype hwf hihl hproto bytes
  have hlen : bytes.length = 14 + 4 * l.ihl.toNat + 20 + payload.length := by
    simp [bytes, Ipv4Line.bytes_length hwf hihl, Nat.add_assoc]
  have hload : (m.load 0 bytes).HoldsAt 0 bytes := m.holdsAt_load 0 bytes
  generalize m.load 0 bytes = fb at hload ⊢
  simp only [bytes, Memory.holdsAt_append, List.length_append, EthLine.bytes_length, Ipv4Line.bytes_length hwf hihl,
    Nat.zero_add] at hload
  obtain ⟨⟨⟨heth, hip⟩, htcp⟩, -⟩ := hload
  rw [decodeFrame_of_ethLine heth (by omega), htype, frameLayer3_ipv4, frameIpv4_of_ipv4Line _ hip hihl (by omega), hproto,
    frameLayer4_of_tcpLine htcp (by dsimp only; omega)]
  rfl

end Sys2Proof.Machine
end

/-! ## The layer-4 resolver (R111 to R115)

Which operation runs in `L4`, what it leaves, and that every outcome is the `DONE` entry action on a state that differs in
`L4_STATUS` and the ports alone. -/

section
namespace Sys2Proof.Machine

/-- In `L4` the parser runs the row of the layer-4 table that `L4KEY` selects (R146). -/
theorem step_at_l4 {s : State} {i : Instr} (hps : s.ps = .l4) (hin : s.inputs = []) (hrow : decodeLayer4 s.l4key = i) :
    step s = exec i s := by
  rw [← hrow]
  exact step_of_key (k := .layer4 s.l4key) hin (by simp [State.parserKey, hps])

/-- The two outcomes of an operation that needs a header of `n` bytes at `OFF` (R111, R112). -/
theorem exec_outcomes_of_headerLength {i : Instr} {s : State} {n : Nat} {c : L4Status} {p : PortRegs}
    (hexec : exec i s = .next (if s.frameLength - s.off < n then raiseEvent .malformedL4 s else loadPorts c p s)) :
    (n ≤ s.frameLength - s.off → ∃ t, exec i s = .next t ∧ DoneFrom { s with ports := p, l4Status := c } t) ∧
    (s.frameLength - s.off < n → ∃ t, exec i s = .next t ∧ DoneFrom { s with l4Status := .malformed } t) := by
  constructor
  · intro hlong
    rw [if_neg (Nat.not_lt.mpr hlong)] at hexec
    exact ⟨_, hexec, doneFrom_enterDone _⟩
  · intro hshort
    rw [if_pos hshort] at hexec
    exact ⟨_, hexec, doneFrom_enterDone _⟩

/-- Settles O21: 6 selects the TCP row, and the header is 20 bytes long. -/
theorem tcpOperationResult : Obligations.TcpOperationResult := fun s =>
  ⟨fun hps hkey hin => step_at_l4 hps hin (by rw [hkey]; rfl), exec_outcomes_of_headerLength (exec_l4Tcp s)⟩

/-- Settles O22: 17 selects the UDP row, and the header is 8 bytes long. -/
theorem udpOperationResult : Obligations.UdpOperationResult := fun s =>
  ⟨fun hps hkey hin => step_at_l4 hps hin (by rw [hkey]; rfl), exec_outcomes_of_headerLength (exec_l4Udp s)⟩

/-- Settles O23: a key that is neither 6 nor 17 selects the default row, which looks at no byte of the frame. -/
theorem unlistedProtocolResult : Obligations.UnlistedProtocolResult := by
  intro s k
  refine ⟨fun hps hkey htcp hudp hin => step_at_l4 hps hin ?_, _, exec_l4Other k s, doneFrom_enterDone _⟩
  rw [hkey]
  exact decodeLayer4_default fun hlisted => (mem_listedProtocols.mp hlisted).elim htcp hudp

/-- `t` is `s` after a layer-4 outcome: a status and the ports, then the `DONE` entry action. -/
def State.ResolvedTo (s t : State) : Prop :=
  ∃ (c : L4Status) (p : PortRegs), DoneFrom { s with l4Status := c, ports := p } t

theorem resolvedTo_malformedL4 (s : State) : s.ResolvedTo (raiseEvent .malformedL4 s) :=
  ⟨.malformed, s.ports, doneFrom_enterDone _⟩

theorem resolvedTo_unsupportedL4 (s : State) : s.ResolvedTo (raiseEvent .unsupportedL4 s) :=
  ⟨.unsupported, s.ports, doneFrom_enterDone _⟩

theorem resolvedTo_loadPorts (s : State) (c : L4Status) (p : PortRegs) : s.ResolvedTo (loadPorts c p s) :=
  ⟨c, p, doneFrom_enterDone _⟩

/-- What the three layer-4 operations can do. -/
theorem resolvedTo_of_exec {i : Instr} {s t : State} (hi : i = .l4Tcp ∨ i = .l4Udp ∨ ∃ k, i = .l4Other k)
    (ht : exec i s = .next t) : s.ResolvedTo t := by
  obtain rfl | rfl | ⟨k, rfl⟩ := hi
  · cases (exec_l4Tcp s).symm.trans ht
    split_ifs
    · exact resolvedTo_malformedL4 s
    · exact resolvedTo_loadPorts s .tcp _
  · cases (exec_l4Udp s).symm.trans ht
    split_ifs
    · exact resolvedTo_malformedL4 s
    · exact resolvedTo_loadPorts s .udp _
  · cases (exec_l4Other k s).symm.trans ht
    exact resolvedTo_unsupportedL4 s

/-- Settles O24: the frame equation of `DoneFrom`, with the status and the ports read off the new state. -/
theorem resolverLeavesUpperLayers : Obligations.ResolverLeavesUpperLayers := by
  intro i s t hi ht
  obtain ⟨c, p, hframe, -⟩ := resolvedTo_of_exec hi ht
  rw [hframe]

end Sys2Proof.Machine
end

/-! ## The layer-3 dispatcher (R120 to R128)

Which operation runs in `L3` and what it leaves (R121 to R124); then where control goes from every parser state (R127), read
off the operations' results. -/

section
namespace Sys2Proof.Machine

/-- In `L3` the parser runs the row of the layer-3 table that `ETHERTYPE` selects (R146). -/
theorem step_at_l3 {s : State} {i : Instr} (hps : s.ps = .l3) (hin : s.inputs = [])
    (hrow : decodeLayer3 s.eth.etherType = i) : step s = exec i s := by
  rw [← hrow]
  exact step_of_key (k := .layer3 s.eth.etherType) hin (by simp [State.parserKey, hps])

/-- Every cause of `MalformedL3` leaves the same (R121 to R123, R186). -/
theorem malformed_of_exec {i : Instr} {s : State} (hexec : exec i s = .next (raiseEvent .malformedL3 s)) :
    ∃ t, exec i s = .next t ∧ DoneFrom { s with l3Status := .malformed } t :=
  ⟨_, hexec, doneFrom_enterDone _⟩

/-- The outcome of an operation that needs a header of `n` bytes at `OFF`, when they are there. -/
theorem exec_of_headerLength_le {i : Instr} {s t u : State} {n : Nat}
    (hexec : exec i s = .next (if s.frameLength - s.off < n then t else u)) (hlong : n ≤ s.frameLength - s.off) :
    exec i s = .next u := by
  rw [hexec, if_neg (Nat.not_lt.mpr hlong)]

/-- The outcome of an operation that needs a header of `n` bytes at `OFF`, when they are not there. -/
theorem exec_of_lt_headerLength {i : Instr} {s t u : State} {n : Nat}
    (hexec : exec i s = .next (if s.frameLength - s.off < n then t else u)) (hshort : s.frameLength - s.off < n) :
    exec i s = .next t := by
  rw [hexec, if_pos hshort]

/-- The three causes of a malformed IPv4 header are the three conditions of a valid one, each broken (R92). -/
theorem ipv4_causes_iff (avail ihl : Nat) :
    (avail < 20 ∨ ihl < 5 ∨ avail < 4 * ihl) ↔ ¬ (20 ≤ avail ∧ 5 ≤ ihl ∧ 4 * ihl ≤ avail) := by
  omega

/-- Settles O17: `0x0800` selects the IPv4 row, and the operation's test is that one of the three conditions is broken. -/
theorem ipv4OperationResult : Obligations.Ipv4OperationResult := by
  intro s ihl src dst proto valid
  refine ⟨fun hps hkey hin => step_at_l3 hps hin (by rw [hkey]; rfl), fun hvalid => ?_, fun hbad => malformed_of_exec ?_⟩
  · rw [exec_l3Ipv4]
    exact congrArg Host.Outcome.next (if_neg fun hcause => (ipv4_causes_iff _ _).mp hcause hvalid)
  · rw [exec_l3Ipv4]
    exact congrArg Host.Outcome.next (if_pos ((ipv4_causes_iff _ _).mpr hbad))

/-- Settles O18: `0x86DD` selects the IPv6 row, and the header is 40 bytes long. -/
theorem ipv6OperationResult : Obligations.Ipv6OperationResult := fun s =>
  ⟨fun hps hkey hin => step_at_l3 hps hin (by rw [hkey]; rfl), exec_of_headerLength_le (exec_l3Ipv6 s),
    fun hshort => malformed_of_exec (exec_of_lt_headerLength (exec_l3Ipv6 s) hshort)⟩

/-- Settles O19: `0x0806` selects the ARP row, and the packet is 28 bytes long. -/
theorem arpOperationResult : Obligations.ArpOperationResult := fun s =>
  ⟨fun hps hkey hin => step_at_l3 hps hin (by rw [hkey]; rfl),
    fun hlong => ⟨_, exec_of_headerLength_le (exec_l3Arp s) hlong, doneFrom_enterDone _⟩,
    fun hshort => malformed_of_exec (exec_of_lt_headerLength (exec_l3Arp s) hshort)⟩

/-- Settles O20: a key that is none of the three codes selects the default row, which looks at no byte of the frame. -/
theorem unlistedEtherTypeResult : Obligations.UnlistedEtherTypeResult := by
  intro s k
  refine ⟨fun hps hkey h4 h6 ha hin => step_at_l3 hps hin ?_, _, exec_l3Other k s, doneFrom_enterDone _⟩
  rw [hkey]
  exact decodeLayer3_default fun hlisted => (mem_listedEtherTypes.mp hlisted).elim h4 fun h => h.elim h6 ha

/-! ### Where control goes -/

theorem ParserState.busy_iff (p : ParserState) : p.busy = true ↔ p = .l2 ∨ p = .l3 ∨ p = .l4 := by
  cases p <;> simp [ParserState.busy]

theorem ParserState.not_busy_iff (p : ParserState) : p.busy = false ↔ p = .idle ∨ p = .done := by
  cases p <;> simp [ParserState.busy]

/-- In `IDLE` and `DONE` there is no key, so no operation is enabled (R146). -/
theorem State.parserKey_waiting {s : State} (hps : s.ps = .idle ∨ s.ps = .done) : s.parserKey = none := by
  obtain hps | hps := hps <;> simp [State.parserKey, hps]

/-- In `L2` the parser runs `L2.ETH` (R146). -/
theorem step_at_l2 {s : State} (hps : s.ps = .l2) (hin : s.inputs = []) : step s = exec .l2Eth s :=
  step_of_key (k := .layer2) hin (by simp [State.parserKey, hps])

/-- The `DONE` entry action ends the decode and moves no cursor (R147). -/
theorem DoneFrom.ps_off {u t : State} (h : DoneFrom u t) : t.ps = .done ∧ t.off = u.off := by
  obtain ⟨hframe, -⟩ := h
  exact ⟨by rw [hframe], by rw [hframe]⟩

/-- The layer-2 row of R127 on a frame too short for an Ethernet header. -/
theorem step_l2_short {s : State} (hps : s.ps = .l2) (hin : s.inputs = []) (hshort : s.frameLength < 14) :
    step s = .next (raiseEvent .rejected { s with off := 0 }) := by
  rw [step_at_l2 hps hin, exec_l2Eth, if_pos hshort]

/-- The layer-2 row of R127 on a frame with an Ethernet header. -/
theorem step_l2_long {s : State} (hps : s.ps = .l2) (hin : s.inputs = []) (hlong : 14 ≤ s.frameLength) :
    step s = .next (loadEth ⟨s.fb.field 0 6, s.fb.field 6 6, s.fb.field 12 2⟩ 14 s) := by
  rw [step_at_l2 hps hin, exec_l2Eth, if_neg (Nat.not_lt.mpr hlong)]

/-- ARP, well-formed or not, ends the decode with the cursor where it was (R123). -/
theorem exec_l3Arp_ends (s : State) : ∃ t, exec .l3Arp s = .next t ∧ t.ps = .done ∧ t.off = s.off := by
  obtain ⟨-, hlong, hshort⟩ := arpOperationResult s
  obtain h | h := Nat.lt_or_ge (s.frameLength - s.off) 28
  · obtain ⟨t, ht, hdone⟩ := hshort h
    exact ⟨t, ht, hdone.ps_off⟩
  · obtain ⟨t, ht, hdone⟩ := hlong h
    exact ⟨t, ht, hdone.ps_off⟩

/-- Every layer-3 key without a layer-4 payload ends the decode with the cursor where it was (R123, R124). -/
theorem exec_layer3_ends {k : BitVec 16} (h4 : k ≠ Config.etypeIpv4) (h6 : k ≠ Config.etypeIpv6) (s : State) :
    ∃ t, exec (decodeLayer3 k) s = .next t ∧ t.ps = .done ∧ t.off = s.off := by
  obtain ⟨h, -⟩ | ⟨h, -⟩ | ⟨-, hrow⟩ | ⟨-, hrow⟩ := decodeLayer3_cases k
  · exact absurd h h4
  · exact absurd h h6
  · rw [hrow]
    exact exec_l3Arp_ends s
  · rw [hrow]
    exact ⟨_, exec_l3Other k s, raiseEvent_ps _ s, raiseEvent_off _ s⟩

/-- Every layer-4 key ends the decode with the cursor where it was (R111 to R113). -/
theorem exec_layer4_ends (k : BitVec 8) (s : State) :
    ∃ t, exec (decodeLayer4 k) s = .next t ∧ t.ps = .done ∧ t.off = s.off := by
  have hresolver : decodeLayer4 k = .l4Tcp ∨ decodeLayer4 k = .l4Udp ∨ ∃ key, decodeLayer4 k = .l4Other key := by
    obtain ⟨-, h⟩ | ⟨-, h⟩ | ⟨-, h⟩ := decodeLayer4_cases k
    · exact .inl h
    · exact .inr (.inl h)
    · exact .inr (.inr ⟨k, h⟩)
  obtain ⟨t, ht⟩ := exec_eq_next (decodeLayer4 k) s
  obtain ⟨c, p, hdone⟩ := resolvedTo_of_exec hresolver ht
  exact ⟨t, ht, hdone.ps_off⟩

/-- The IPv4 row of R127: a valid header leads to `L4` behind it, anything else to `DONE`. -/
theorem ipv4_control {s : State} (hps : s.ps = .l3) (hin : s.inputs = []) (hoff : s.off = 14)
    (hkey : s.eth.etherType = 0x0800) :
    let ihl : BitVec 4 := (s.fb.field 14 1).extractLsb' 0 4
    let valid := 20 ≤ s.frameLength - 14 ∧ 5 ≤ ihl.toNat ∧ 4 * ihl.toNat ≤ s.frameLength - 14
    ∃ t, step s = .next t ∧
      (valid → t.ps = .l4 ∧ t.ip4.ihl = ihl ∧ t.off = 14 + 4 * ihl.toNat ∧ t.ip4.proto = s.fb.field 23 1 ∧
        t.parserKey = some (.layer4 t.ip4.proto)) ∧
      (¬ valid → t.ps = .done ∧ t.off = 14) := by
  intro ihl valid
  obtain ⟨hselected, hloads, hends⟩ := ipv4OperationResult s
  rw [hoff] at hloads hends
  rw [hselected hps hkey hin]
  by_cases hvalid : valid
  · exact ⟨_, hloads hvalid, fun _ => ⟨rfl, rfl, rfl, rfl, rfl⟩, fun hbad => absurd hvalid hbad⟩
  · obtain ⟨t, ht, hdone⟩ := hends hvalid
    exact ⟨t, ht, fun h => absurd h hvalid, fun _ => hdone.ps_off⟩

/-- The IPv6 row of R127: a whole header leads to `L4` behind it, anything else to `DONE`. -/
theorem ipv6_control {s : State} (hps : s.ps = .l3) (hin : s.inputs = []) (hoff : s.off = 14)
    (hkey : s.eth.etherType = 0x86DD) :
    ∃ t, step s = .next t ∧
      (40 ≤ s.frameLength - 14 → t.ps = .l4 ∧ t.off = 54 ∧ t.ip6.nh = s.fb.field 20 1 ∧
        t.parserKey = some (.layer4 t.ip6.nh)) ∧
      (¬ 40 ≤ s.frameLength - 14 → t.ps = .done ∧ t.off = 14) := by
  obtain ⟨hselected, hloads, hends⟩ := ipv6OperationResult s
  rw [hoff] at hloads hends
  rw [hselected hps hkey hin]
  by_cases hvalid : 40 ≤ s.frameLength - 14
  · exact ⟨_, hloads hvalid, fun _ => ⟨rfl, rfl, rfl, rfl⟩, fun hbad => absurd hvalid hbad⟩
  · obtain ⟨t, ht, hdone⟩ := hends (Nat.not_le.mp hvalid)
    exact ⟨t, ht, fun h => absurd h hvalid, fun _ => hdone.ps_off⟩

/-- Settles O28: a lemma for each row of R127. -/
theorem nextStateTable : Obligations.NextStateTable := by
  intro s hin ihl valid4 valid6
  refine ⟨fun hps hshort => ?short, fun hps hlong => ?long, fun hps hoff hkey => ipv4_control hps hin hoff hkey,
    fun hps hoff hkey => ipv6_control hps hin hoff hkey, fun hps hoff h4 h6 => ?layer3, fun hps => ?layer4,
    fun mode label above hps => ?accepted, fun mode label above hps => ?ignored,
    fun hps => step_waiting hin (State.parserKey_waiting hps)⟩
  case short => exact ⟨_, step_l2_short hps hin hshort, rfl, rfl⟩
  case long => exact ⟨_, step_l2_long hps hin hlong, rfl, rfl, rfl⟩
  case layer3 =>
    rw [step_at_l3 hps hin rfl, ← hoff]
    exact exec_layer3_ends h4 h6 s
  case layer4 =>
    rw [step_at_l4 hps hin rfl]
    exact exec_layer4_ends s.l4key s
  case accepted =>
    rw [exec_command, acceptCommand_waiting ((ParserState.not_busy_iff _).mpr hps)]
    exact ⟨_, rfl, rfl, rfl⟩
  case ignored => rw [exec_command, acceptCommand_busy ((ParserState.busy_iff _).mpr hps)]

/-! ### Progress -/

theorem exec_l2Eth_ps {s t : State} (ht : exec .l2Eth s = .next t) : t.ps = .l3 ∨ t.ps = .done := by
  cases (exec_l2Eth s).symm.trans ht
  split_ifs
  · exact .inr (raiseEvent_ps _ _)
  · exact .inl rfl

/-- A layer-3 operation leads to `L4` or ends the decode, whichever key selected it. -/
theorem exec_layer3_ps {k : BitVec 16} {s t : State} (ht : exec (decodeLayer3 k) s = .next t) :
    t.ps = .l4 ∨ t.ps = .done := by
  obtain ⟨-, hrow⟩ | ⟨-, hrow⟩ | ⟨-, hrow⟩ | ⟨-, hrow⟩ := decodeLayer3_cases k <;> rw [hrow] at ht
  · cases (exec_l3Ipv4 s).symm.trans ht
    dsimp only
    split_ifs
    · exact .inr (raiseEvent_ps _ s)
    · exact .inl rfl
  · cases (exec_l3Ipv6 s).symm.trans ht
    split_ifs
    · exact .inr (raiseEvent_ps _ s)
    · exact .inl rfl
  · obtain ⟨u, hu, hdone, -⟩ := exec_l3Arp_ends s
    cases hu.symm.trans ht
    exact .inr hdone
  · cases (exec_l3Other k s).symm.trans ht
    exact .inr (raiseEvent_ps _ s)

/-- The operation the parser dispatches to leads strictly later in the chain `L2, L3, L4, DONE` (R128). -/
theorem parserOperation_rank_lt {s t : State} {k : Key} (hk : s.parserKey = some k) (ht : exec (decode k) s = .next t) :
    s.ps.rank < t.ps.rank := by
  unfold State.parserKey at hk
  split at hk <;> rename_i hps <;> cases hk <;> rw [hps]
  · obtain h | h := exec_l2Eth_ps ht <;> rw [h] <;> decide
  · obtain h | h := exec_layer3_ps ht <;> rw [h] <;> decide
  · obtain ⟨u, hu, hdone, -⟩ := exec_layer4_ends s.l4key s
    cases hu.symm.trans ht
    rw [hdone]
    decide

/-- A busy parser has a key to dispatch on (R146). -/
theorem State.parserKey_of_busy {s : State} (hbusy : s.ps.busy = true) : ∃ k, s.parserKey = some k := by
  obtain hps | hps | hps := (ParserState.busy_iff _).mp hbusy
  · exact ⟨.layer2, by simp [State.parserKey, hps]⟩
  · exact ⟨.layer3 s.eth.etherType, by simp [State.parserKey, hps]⟩
  · exact ⟨.layer4 s.l4key, by simp [State.parserKey, hps]⟩

/-- `IDLE` is first in the chain, so nothing leads forward to it. -/
theorem ParserState.ne_idle_of_rank_lt {p q : ParserState} (h : p.rank < q.rank) : q ≠ .idle := by
  rintro rfl
  exact Nat.not_lt_zero _ h

/-- Settles O29: the parser's key selects an operation, which has a next state further down the chain and leaves the inputs. -/
theorem busyParserMovesForward : Obligations.BusyParserMovesForward := by
  intro s hbusy hin
  obtain ⟨k, hk⟩ := State.parserKey_of_busy hbusy
  obtain ⟨t, ht⟩ := exec_eq_next (decode k) s
  obtain ⟨-, -, hinputs, -⟩ := exec_sameFrame ht
  have hforward : s.ps.rank < t.ps.rank := parserOperation_rank_lt hk ht
  exact ⟨t, (step_of_key hin hk).trans ht, hforward, ParserState.ne_idle_of_rank_lt hforward, hinputs.trans hin⟩

end Sys2Proof.Machine
end

/-! ## The whole decode (R140, R148, R154)

The run of a command computes `Decode`, so what a Result depends on is what `Decode` depends on; a launch is the host's writes, taken
one by one, and then such a run. -/

section
namespace Sys2Proof.Machine

/-- A choice by the mode is a choice by `CMD` bit 0 (R16, R70). -/
theorem match_modeOfBit {α : Type} (mode : BitVec 1) (a b : α) :
    (match modeOfBit mode with | .process => a | .summarize => b) = if mode = 1 then a else b := by
  obtain rfl | rfl : mode = 0 ∨ mode = 1 := by bv_omega
  · rfl
  · rfl

/-- Settles O31: the run of a command ends the decode with the Result of `Decode`. -/
theorem runComputesDecode : Obligations.RunComputesDecode := by
  intro s mode label above hps
  obtain ⟨t, hrun, hdone, hin, hfb, hlength, hlabel, hresult, hreports⟩ := run_command_decodes s mode label above hps
  exact ⟨t, hrun, hdone, hin, hresult, hfb, hlength, hlabel, hreports.trans (match_modeOfBit mode _ _)⟩

/-- Settles O32: both runs compute `Decode`, which reads no byte beyond the frame. -/
theorem resultDependsOnTheFrameAlone : Obligations.ResultDependsOnTheFrameAlone := by
  intro s₁ s₂ m₁ m₂ l₁ l₂ a₁ a₂ hps₁ hps₂ hlength hbytes
  obtain ⟨t₁, hrun₁, hdone₁, -, -, -, -, hresult₁, -⟩ := run_command_decodes s₁ m₁ l₁ a₁ hps₁
  obtain ⟨t₂, hrun₂, hdone₂, -, -, -, -, hresult₂, -⟩ := run_command_decodes s₂ m₂ l₂ a₂ hps₂
  have hagree : FramesAgree s₁.fb s₂.fb s₁.frameLength s₂.frameLength := ⟨.inl hlength, fun a ha _ => hbytes a ha⟩
  exact ⟨t₁, t₂, hrun₁, hrun₂, hdone₁, hdone₂, by rw [hresult₁, hresult₂, decodeFrame_congr hagree]⟩

/-! ### The launch of a frame -/

/-- The host's writes of a byte string that fits `FB` are taken one a step while no decode runs (R53, R213). -/
theorem run_frameWrites {s : State} (hwait : s.ps.busy = false) (rest : List Input) (k a : Nat) (bytes : List Byte)
    (hfits : a + bytes.length ≤ Config.fbMax) :
    run (bytes.length + k) { s with inputs := frameWrites a bytes ++ rest } =
      run k { s with inputs := rest, fb := s.fb.load a bytes } := by
  induction bytes generalizing s a with
  | nil => rw [List.length_nil, Nat.zero_add]; rfl
  | cons b bs ih =>
    rw [List.length_cons] at hfits ⊢
    have hstep : step { s with inputs := frameWrites a (b :: bs) ++ rest } =
        .next { s with inputs := frameWrites (a + 1) bs ++ rest, fb := s.fb.write a b } :=
      (step_writeFb s a b _).trans
        (hostWriteFb_kept (s := { s with inputs := frameWrites (a + 1) bs ++ rest }) (by omega) (.inl hwait) b)
    rw [Nat.add_right_comm, run_of_step hstep]
    exact ih (s := { s with fb := s.fb.write a b }) hwait (a + 1) (by omega)

/-- The host's write of a length that fits `FB` is taken while no decode runs (R12, R213). -/
theorem run_writeLength {s : State} (hwait : s.ps.busy = false) (rest : List Input) (k : Nat) {n : Nat}
    (hfits : n ≤ Config.fbMax) :
    run (k + 1) { s with inputs := .host (.writeReg .flen n) :: rest } =
      run k { s with inputs := rest, flen := n, flenWritten := true } :=
  run_of_step ((step_writeReg s .flen n rest).trans (hostWriteLength_fits (s := { s with inputs := rest }) hwait hfits)) k

/-- `CMD` bit 0 of a launch is the code of its mode (R16). -/
theorem modeOfBit_code (mode : Mode) : modeOfBit mode.code = mode := by
  cases mode <;> rfl

/-- `s` with a frame loaded and its length written, before the command (R213). -/
def State.withFrame (s : State) (frame : List Byte) : State :=
  { s with fb := s.fb.load 0 frame, flen := frame.length, flenWritten := true }

theorem State.frameLength_withFrame (s : State) (frame : List Byte) : (s.withFrame frame).frameLength = frame.length :=
  State.frameLength_written rfl

/-- A launch has loaded the frame when its command comes (R140). -/
theorem run_launch {s : State} (hwait : s.ps.busy = false) (mode : Mode) (label : Label) {frame : List Byte}
    (hfits : frame.length ≤ Config.fbMax) (k : Nat) :
    run (frame.length + (k + 1)) { s with inputs := launch mode label frame } =
      run k { s.withFrame frame with inputs := [.host (.writeCmd mode.code label 0)] } :=
  (run_frameWrites hwait _ (k + 1) 0 frame (by omega)).trans
    (run_writeLength (s := { s with fb := s.fb.load 0 frame }) hwait _ k hfits)

/-- Settles O34: the launch loads the frame, and its command runs `Decode` on what was loaded. -/
theorem launchedFrameIsDecoded : Obligations.LaunchedFrameIsDecoded := by
  intro s mode label frame hps hfits
  have hwait : s.ps.busy = false := (ParserState.not_busy_iff _).mpr hps
  obtain ⟨t, hrun, hdone, -, -, -, -, hresult, hreports⟩ := run_command_decodes (s.withFrame frame) mode.code label 0 hps
  rw [State.frameLength_withFrame] at hresult hreports
  rw [modeOfBit_code] at hreports
  exact ⟨t, (run_launch hwait mode label hfits 4).trans hrun, hdone, hresult, hreports⟩

end Sys2Proof.Machine
end

/-! ## The entry of a decode: the commands and layer 2 (R141 to R146)

What a command does when it is accepted and when it is ignored, what `L2.ETH` leaves, and which operation a step runs. -/

section
namespace Sys2Proof.Machine

/-- After `START` only the registers a decode does not fill are valid (R29). -/
theorem regValid_startCommand (m : Mode) (l : Label) (s : State) {r : Reg}
    (hr : r ∉ [Reg.flen, Reg.ps, Reg.mode, Reg.label]) : (startCommand m l s).regValid r = false := by
  cases r with
  | flen | ps | mode | label => simp at hr
  | _ => rfl

/-- Settles O14: both commands are `acceptCommand` with their mode, which is `START` in a waiting parser. -/
theorem acceptedCommandStartsADecode : Obligations.AcceptedCommandStartsADecode := by
  intro s label p hp
  have hexec : exec p.1 s = .next (acceptCommand p.2 label s) := by
    obtain rfl | rfl := hp
    · exact exec_cmdSummarize label s
    · exact exec_cmdProcess label s
  refine ⟨fun hps => ⟨startCommand p.2 label s, ?_, rfl, fun r hr => regValid_startCommand p.2 label s hr⟩, fun hps => ?_⟩
  · rw [hexec, acceptCommand_waiting ((ParserState.not_busy_iff _).mpr hps)]
  · have hbusy : s.ps.busy = true := by rwa [← ParserState.not_busy_iff, Bool.not_eq_false] at hps
    rw [hexec, acceptCommand_busy hbusy]

/-- A `CMD` write in `L2`, `L3` or `L4` runs a command that changes nothing (R145). -/
theorem exec_command_busy {s : State} (hps : s.ps = .l2 ∨ s.ps = .l3 ∨ s.ps = .l4) (mode : BitVec 1) (label : Label)
    (above : Nat) : exec (decode (.command mode label above)) s = .next s := by
  rw [exec_command, acceptCommand_busy ((ParserState.busy_iff _).mpr hps)]

/-- Settles O15: as an operation, and as a step on the state with the write used up. -/
theorem commandWhileBusyIsIgnored : Obligations.CommandWhileBusyIsIgnored := fun s mode label above rest hps =>
  ⟨exec_command_busy hps mode label above,
    (step_command s mode label above rest).trans (exec_command_busy (s := { s with inputs := rest }) hps mode label above)⟩

/-- Settles O16: the two sides of the 14 bytes an Ethernet header needs. -/
theorem ethernetOperationResult : Obligations.EthernetOperationResult := by
  refine fun s => ⟨step_at_l2, fun hlong => ?_, fun hshort => ⟨raiseEvent .rejected { s with off := 0 }, ?_, ?_⟩⟩
  · rw [exec_l2Eth, if_neg (Nat.not_lt.mpr hlong)]
    rfl
  · rw [exec_l2Eth, if_pos hshort]
  · exact doneFrom_enterDone { s with l2Status := .rejected, off := 0 }

/-- Settles O5: the key of each parser state, and the step that runs it or waits. -/
theorem stepRunsTheSelectedOperation : Obligations.StepRunsTheSelectedOperation := by
  intro s rest
  refine ⟨fun hps => ?l2, fun hps => ?l3, fun hps => ?l4, State.parserKey_waiting, fun k hk hin => step_of_key hin hk,
    fun k hk => ?tick, fun mode label above => step_command s mode label above rest,
    fun hk hin => step_waiting hin hk, fun hk => ?wait⟩
  case l2 | l3 | l4 => simp [State.parserKey, hps]
  case tick | wait => rw [step_tick, hk]

/-! ### How a decode ends -/

/-- `t` is what a parser operation may leave of the records of `s`: with the decode ended, one more record in `PROCESS` mode, of `t`
itself; with the decode going on, the same records (R147). -/
def State.ReportsWhenDone (s t : State) : Prop :=
  (t.ps = .done → t.reportQ = match s.mode with
    | .process => s.reportQ ++ [t.report]
    | .summarize => s.reportQ) ∧
  (t.ps ≠ .done → t.reportQ = s.reportQ)

/-- The `DONE` entry action, in a state that has the mode and the records of `s`. -/
theorem reportsWhenDone_of_doneFrom {s u t : State} (h : DoneFrom u t) (hmode : u.mode = s.mode)
    (hreports : u.reportQ = s.reportQ) : s.ReportsWhenDone t := by
  obtain ⟨-, hq⟩ := id h
  rw [hmode, hreports] at hq
  obtain ⟨hdone, -⟩ := h.ps_off
  exact ⟨fun _ => hq, fun hps => absurd hdone hps⟩

/-- An operation that leads on to the next layer. -/
theorem reportsWhenDone_of_loaded {s t : State} (hps : t.ps ≠ .done) (hreports : t.reportQ = s.reportQ) :
    s.ReportsWhenDone t := ⟨fun hdone => absurd hdone hps, fun _ => hreports⟩

theorem reportsWhenDone_malformedL3 (s : State) : s.ReportsWhenDone (raiseEvent .malformedL3 s) :=
  reportsWhenDone_of_doneFrom (doneFrom_enterDone _) rfl rfl

theorem reportsWhenDone_ite {c : Prop} [Decidable c] {s t u : State} (ht : s.ReportsWhenDone t) (hu : s.ReportsWhenDone u) :
    s.ReportsWhenDone (if c then t else u) := by
  split_ifs
  · exact ht
  · exact hu

theorem exec_l2Eth_reportsWhenDone {s t : State} (ht : exec .l2Eth s = .next t) : s.ReportsWhenDone t := by
  cases (exec_l2Eth s).symm.trans ht
  exact reportsWhenDone_ite (reportsWhenDone_of_doneFrom (doneFrom_enterDone _) rfl rfl)
    (reportsWhenDone_of_loaded (by simp) rfl)

theorem exec_layer3_reportsWhenDone {k : BitVec 16} {s t : State} (ht : exec (decodeLayer3 k) s = .next t) :
    s.ReportsWhenDone t := by
  obtain ⟨-, hrow⟩ | ⟨-, hrow⟩ | ⟨-, hrow⟩ | ⟨-, hrow⟩ := decodeLayer3_cases k <;> rw [hrow] at ht
  · cases (exec_l3Ipv4 s).symm.trans ht
    exact reportsWhenDone_ite (reportsWhenDone_malformedL3 s) (reportsWhenDone_of_loaded (by simp) rfl)
  · cases (exec_l3Ipv6 s).symm.trans ht
    exact reportsWhenDone_ite (reportsWhenDone_malformedL3 s) (reportsWhenDone_of_loaded (by simp) rfl)
  · cases (exec_l3Arp s).symm.trans ht
    exact reportsWhenDone_ite (reportsWhenDone_malformedL3 s) (reportsWhenDone_of_doneFrom (doneFrom_enterDone _) rfl rfl)
  · cases (exec_l3Other k s).symm.trans ht
    exact reportsWhenDone_of_doneFrom (doneFrom_enterDone _) rfl rfl

/-- The operation of a layer-4 key is one of the resolver's three. -/
theorem decodeLayer4_resolver (k : BitVec 8) :
    decodeLayer4 k = .l4Tcp ∨ decodeLayer4 k = .l4Udp ∨ ∃ key, decodeLayer4 k = .l4Other key := by
  obtain ⟨-, h⟩ | ⟨-, h⟩ | ⟨-, h⟩ := decodeLayer4_cases k
  · exact .inl h
  · exact .inr (.inl h)
  · exact .inr (.inr ⟨k, h⟩)

theorem exec_layer4_reportsWhenDone {k : BitVec 8} {s t : State} (ht : exec (decodeLayer4 k) s = .next t) :
    s.ReportsWhenDone t := by
  obtain ⟨_, _, hdone⟩ := resolvedTo_of_exec (decodeLayer4_resolver k) ht
  exact reportsWhenDone_of_doneFrom hdone rfl rfl

/-- Settles O26: layer by layer, whichever operation the key selects. -/
theorem oneReportPerEndedDecode : Obligations.OneReportPerEndedDecode := by
  intro k s t hk ht
  have hreports : s.ReportsWhenDone t := by
    unfold State.parserKey at hk
    split at hk <;> cases hk
    · exact exec_l2Eth_reportsWhenDone ht
    · exact exec_layer3_reportsWhenDone ht
    · exact exec_layer4_reportsWhenDone ht
  obtain ⟨hended, hgoing⟩ := hreports
  exact ⟨fun hps => ⟨t.doneOut_iff.mpr hps, hended hps⟩, hgoing⟩

/-- The two ways out of `L3`: the decode has ended with an outcome that has no payload, or the resolver is next (R127). -/
def State.LeavesL3 (t : State) : Prop :=
  (t.l3Status = .arp ∨ t.l3Status = .unsupported ∨ t.l3Status = .malformed) ∧ t.ps = .done ∨
  (t.l3Status = .ipv4 ∨ t.l3Status = .ipv6) ∧ t.ps = .l4

theorem leavesL3_malformedL3 (s : State) : (raiseEvent .malformedL3 s).LeavesL3 := .inl ⟨.inr (.inr rfl), rfl⟩

/-- Every layer-3 operation leaves `L3` in one of the two ways, whichever key selected it. -/
theorem exec_layer3_leavesL3 {k : BitVec 16} {s t : State} (ht : exec (decodeLayer3 k) s = .next t) : t.LeavesL3 := by
  obtain ⟨-, hrow⟩ | ⟨-, hrow⟩ | ⟨-, hrow⟩ | ⟨-, hrow⟩ := decodeLayer3_cases k <;> rw [hrow] at ht
  · cases (exec_l3Ipv4 s).symm.trans ht
    dsimp only
    split_ifs
    · exact leavesL3_malformedL3 s
    · exact .inr ⟨.inl rfl, rfl⟩
  · cases (exec_l3Ipv6 s).symm.trans ht
    split_ifs
    · exact leavesL3_malformedL3 s
    · exact .inr ⟨.inr rfl, rfl⟩
  · cases (exec_l3Arp s).symm.trans ht
    split_ifs
    · exact leavesL3_malformedL3 s
    · exact .inl ⟨.inl rfl, rfl⟩
  · cases (exec_l3Other k s).symm.trans ht
    exact .inl ⟨.inr (.inl rfl), rfl⟩

/-- From `L4` one step ends the decode (R150). -/
theorem step_l4_ends {s : State} (hps : s.ps = .l4) (hin : s.inputs = []) : ∃ t, step s = .next t ∧ t.ps = .done := by
  obtain ⟨t, ht, hdone, -⟩ := exec_layer4_ends s.l4key s
  exact ⟨t, (step_at_l4 hps hin rfl).trans ht, hdone⟩

/-- From `L3` the decode ends after one step or is in `L4` and ends after two (R150). -/
theorem step_l3_ends {s : State} (hps : s.ps = .l3) (hin : s.inputs = []) :
    ∃ u, step s = .next u ∧
      ((u.l3Status = .arp ∨ u.l3Status = .unsupported ∨ u.l3Status = .malformed) ∧ u.ps = .done ∨
       (u.l3Status = .ipv4 ∨ u.l3Status = .ipv6) ∧ u.ps = .l4 ∧ ∃ v, step u = .next v ∧ v.ps = .done) := by
  obtain ⟨u, hu⟩ := exec_eq_next (decodeLayer3 s.eth.etherType) s
  obtain ⟨-, -, hinputs, -⟩ := exec_sameFrame hu
  refine ⟨u, (step_at_l3 hps hin rfl).trans hu, ?_⟩
  obtain hended | ⟨hpayload, hl4⟩ := exec_layer3_leavesL3 hu
  · exact .inl hended
  · exact .inr ⟨hpayload, hl4, step_l4_ends hl4 (hinputs.trans hin)⟩

/-- Settles O30: the row of layer 2 that the length selects, and behind it the steps from `L3`. -/
theorem decodeEndsWithinThreeSteps : Obligations.DecodeEndsWithinThreeSteps := by
  intro s hps hin
  obtain hshort | hlong := Nat.lt_or_ge s.frameLength 14
  · exact ⟨_, step_l2_short hps hin hshort, fun _ => ⟨rfl, rfl⟩, fun hlong => absurd hshort (Nat.not_lt.mpr hlong)⟩
  · exact ⟨_, step_l2_long hps hin hlong, fun hshort => absurd hshort (Nat.not_lt.mpr hlong),
      fun _ => ⟨rfl, step_l3_ends rfl hin⟩⟩

/-! ### A host read of a valid register -/

/-- The inputs make no register valid or invalid. -/
theorem State.regValid_inputs (s : State) (rest : List Input) (r : Reg) :
    ({ s with inputs := rest } : State).regValid r = s.regValid r := by
  cases r <;> rfl

theorem State.regContent_inputs (s : State) (rest : List Input) (r : Reg) :
    ({ s with inputs := rest } : State).regContent r = s.regContent r := by
  cases r <;> rfl

theorem hostReadReg_of_valid {s : State} {r : Reg} (h : s.regValid r = true) :
    hostReadReg r s = .next { s with hostData := .value (s.regContent r) } := by
  rw [hostReadReg, if_pos h]

/-- Settles O42: the read's step, on the state with the read used up. -/
theorem validRegisterReads : Obligations.ValidRegisterReads := by
  intro s r rest hvalid
  rw [step_readReg, hostReadReg_of_valid ((s.regValid_inputs rest r).trans hvalid), s.regContent_inputs rest r]

end Sys2Proof.Machine
end

/-! ## Several instances and their sink (R172, R197, R198)

What one step of a machine does to its inputs and its report queue comes first. Then one step of a system: the machine that moves
takes its own step and hands its delivery to the sink, and everything else stays. Then a schedule. -/

section
namespace Sys2Proof.Machine

/-! ### The queue over one step of a machine -/

theorem State.delivers_sink {s : State} {rest : List Input} (h : s.inputs = .sink :: rest) :
    s.delivers = s.reportQ.take 1 := by
  rw [State.delivers, h]

theorem State.delivers_other {s : State} (h : s.inputs.head? ≠ some .sink) : s.delivers = [] := by
  unfold State.delivers
  split
  · next rest hin => exact absurd (congrArg List.head? hin) h
  · rfl

theorem State.delivers_empty {s : State} (h : s.reportQ = []) : s.delivers = [] := by
  unfold State.delivers
  split
  · rw [h, List.take_nil]
  · rfl

/-- The sink's turn moves the oldest record from the queue to the delivery. -/
theorem State.delivers_append_sinkTake {s : State} (h : s.inputs.head? = some .sink) (rest : List Input) :
    s.delivers ++ (sinkTake { s with inputs := rest }).reportQ = s.reportQ := by
  obtain ⟨rest', hin⟩ := List.head?_eq_some_iff.mp h
  rw [State.delivers_sink hin]
  show s.reportQ.take 1 ++ s.reportQ.tail = s.reportQ
  rw [← List.drop_one, List.take_append_drop]

theorem reports_enterDone (s : State) : s.reportQ <+: (enterDone s).reportQ := by
  unfold enterDone
  cases s.mode with
  | summarize => exact List.prefix_refl _
  | process => exact List.prefix_append _ _

theorem reports_raiseEvent (e : Event) (s : State) : s.reportQ <+: (raiseEvent e s).reportQ := by
  have hrecord : (e.record s).reportQ = s.reportQ := by cases e <;> rfl
  exact hrecord ▸ reports_enterDone (e.record s)

theorem reports_loadArp (p : ArpRegs) (s : State) : s.reportQ <+: (loadArp p s).reportQ :=
  (reports_enterDone { s with arp := p, l3Status := .arp, sum := .ofV4 p.spa p.tpa } :)

theorem reports_loadPorts (c : L4Status) (p : PortRegs) (s : State) : s.reportQ <+: (loadPorts c p s).reportQ :=
  (reports_enterDone { s with ports := p, l4Status := c } :)

theorem reports_acceptCommand (m : Mode) (l : Label) (s : State) : (acceptCommand m l s).reportQ = s.reportQ := by
  unfold acceptCommand
  split_ifs <;> rfl

theorem reports_ite {c : Prop} [Decidable c] {s t u : State} (ht : s.reportQ <+: t.reportQ) (hu : s.reportQ <+: u.reportQ) :
    s.reportQ <+: (if c then t else u).reportQ := by
  split_ifs
  · exact ht
  · exact hu

/-- An operation takes no record out of the queue: it ends in one of the shared updates, and each of these leaves the queue or
appends to it. -/
theorem exec_reports {i : Instr} {s t : State} (ht : exec i s = .next t) : s.reportQ <+: t.reportQ := by
  cases i with
  | cmdSummarize l =>
    cases (exec_cmdSummarize l s).symm.trans ht
    rw [reports_acceptCommand]
  | cmdProcess l =>
    cases (exec_cmdProcess l s).symm.trans ht
    rw [reports_acceptCommand]
  | l2Eth =>
    cases (exec_l2Eth s).symm.trans ht
    exact reports_ite (reports_raiseEvent .rejected { s with off := 0 }) (List.prefix_refl _)
  | l3Ipv4 =>
    cases (exec_l3Ipv4 s).symm.trans ht
    exact reports_ite (reports_raiseEvent _ s) (List.prefix_refl _)
  | l3Ipv6 =>
    cases (exec_l3Ipv6 s).symm.trans ht
    exact reports_ite (reports_raiseEvent _ s) (List.prefix_refl _)
  | l3Arp =>
    cases (exec_l3Arp s).symm.trans ht
    exact reports_ite (reports_raiseEvent _ s) (reports_loadArp _ s)
  | l3Other k => cases (exec_l3Other k s).symm.trans ht; exact reports_raiseEvent _ s
  | l4Tcp =>
    cases (exec_l4Tcp s).symm.trans ht
    exact reports_ite (reports_raiseEvent _ s) (reports_loadPorts _ _ s)
  | l4Udp =>
    cases (exec_l4Udp s).symm.trans ht
    exact reports_ite (reports_raiseEvent _ s) (reports_loadPorts _ _ s)
  | l4Other k => cases (exec_l4Other k s).symm.trans ht; exact reports_raiseEvent _ s

/-- `t` has the inputs of `s`, and its queue is that of `s` with perhaps more at the end. -/
def State.Follows (s t : State) : Prop := t.inputs = s.inputs ∧ s.reportQ <+: t.reportQ

theorem follows_exec {i : Instr} {s t : State} (ht : exec i s = .next t) : s.Follows t := by
  obtain ⟨-, -, hinputs, -⟩ := exec_sameFrame ht
  exact ⟨hinputs, exec_reports ht⟩

theorem follows_hostWriteReg {r : Reg} {v : Nat} {s t : State} (ht : hostWriteReg r v s = .next t) : s.Follows t := by
  unfold hostWriteReg hostWriteLength at ht
  split_ifs at ht <;> cases ht <;> exact ⟨rfl, List.prefix_refl _⟩

theorem follows_hostReadReg {r : Reg} {s t : State} (ht : hostReadReg r s = .next t) : s.Follows t := by
  cases ht
  exact ⟨rfl, List.prefix_refl _⟩

theorem follows_hostWriteFb {a : Nat} {b : Byte} {s t : State} (ht : hostWriteFb a b s = .next t) : s.Follows t := by
  unfold hostWriteFb at ht
  split_ifs at ht
  cases ht
  exact ⟨rfl, List.prefix_refl _⟩

theorem follows_hostReadFb {a : Nat} {s t : State} (ht : hostReadFb a s = .next t) : s.Follows t := by
  unfold hostReadFb at ht
  split_ifs at ht
  cases ht
  exact ⟨rfl, List.prefix_refl _⟩

/-- Everything a step does to inputs and queue: it is the sink's, it is a reset, or it takes nothing out of the queue. -/
theorem step_inputs_reports {s t : State} (ht : step s = .next t) :
    (s.inputs.head? = some .sink ∧ t = sinkTake { s with inputs := s.inputs.tail }) ∨
    (s.inputs.head? = some .reset ∧ t = assertReset { s with inputs := s.inputs.tail }) ∨
    (s.inputs.head? ≠ some .sink ∧ ({ s with inputs := s.inputs.tail } : State).Follows t) := by
  have hparser (hin : s.inputs = [] ∨ s.inputs.head? = some .tick) : s.inputs.head? ≠ some .sink := by
    obtain hin | hin := hin <;> simp [hin]
  rcases step_cases s with ⟨-, hin, hs⟩ | ⟨k, -, hin, hs⟩ | ⟨m, l, above, hin, hs⟩ | ⟨-, hs⟩ | ⟨r, v, hin, hs⟩ |
    ⟨r, hin, hs⟩ | ⟨a, b, hin, hs⟩ | ⟨a, hin, hs⟩ | ⟨hin, hs⟩ | ⟨hin, hs⟩ <;> rw [hs] at ht
  · cases ht
    exact .inr (.inr ⟨hparser hin, rfl, List.prefix_refl _⟩)
  · exact .inr (.inr ⟨hparser hin, follows_exec ht⟩)
  · exact .inr (.inr ⟨by simp [hin], follows_exec ht⟩)
  · cases ht
  · exact .inr (.inr ⟨by simp [hin], follows_hostWriteReg ht⟩)
  · exact .inr (.inr ⟨by simp [hin], follows_hostReadReg ht⟩)
  · exact .inr (.inr ⟨by simp [hin], follows_hostWriteFb ht⟩)
  · exact .inr (.inr ⟨by simp [hin], follows_hostReadFb ht⟩)
  · cases ht
    exact .inl ⟨hin, rfl⟩
  · cases ht
    exact .inr (.inl ⟨hin, rfl⟩)

/-- Every step uses up one input, if there is one. -/
theorem step_inputs {s t : State} (ht : step s = .next t) : t.inputs = s.inputs.tail := by
  obtain ⟨-, rfl⟩ | ⟨-, rfl⟩ | ⟨-, hinputs, -⟩ := step_inputs_reports ht
  · rfl
  · rfl
  · exact hinputs

/-- But for a reset, what a step delivers followed by the queue it leaves is the old queue with perhaps more at the end. -/
theorem step_reports {s t : State} (ht : step s = .next t) (hreset : s.inputs.head? ≠ some .reset) :
    s.reportQ <+: s.delivers ++ t.reportQ := by
  obtain ⟨hsink, rfl⟩ | ⟨h, -⟩ | ⟨hother, -, hreports⟩ := step_inputs_reports ht
  · rw [State.delivers_append_sinkTake hsink]
  · exact absurd h hreset
  · rw [State.delivers_other hother]
    exact hreports

/-! ### One step of a system -/

/-- A step of a system is the step of the machine that moves, with what it delivers at the end of the sink. -/
theorem System.stepOf_eq_some {y z : System} {i : Nat} (h : y.stepOf i = some z) :
    ∃ s t, y.instances[i]? = some s ∧ step s = .next t ∧
      z = ⟨y.instances.set i t, y.sink ++ s.delivers.map (Prod.mk i)⟩ := by
  unfold System.stepOf at h
  split at h
  · cases h
  · next s hs =>
    split at h
    · next t ht =>
      cases h
      exact ⟨s, t, hs, ht, rfl⟩
    · cases h
    · cases h

/-- What a step adds to the sink has the number of the machine that moved. -/
theorem System.sinkOf_append (l : List State) (q : List (Nat × Report)) (i j : Nat) (rs : List Report) :
    System.sinkOf ⟨l, q ++ rs.map (Prod.mk i)⟩ j = System.sinkOf ⟨l, q⟩ j ++ if i = j then rs else [] := by
  have hadded : ((rs.map (Prod.mk i)).filter fun e => e.1 == j).map Prod.snd = if i = j then rs else [] := by
    by_cases hij : i = j <;> simp [List.filter_map, Function.comp_def, hij]
  simp only [System.sinkOf, List.filter_append, List.map_append, hadded]

/-- The machine that moves: its own step, and its delivery. -/
theorem System.stepOf_self {y z : System} {i : Nat} {s : State} (h : y.stepOf i = some z) (hs : y.instances[i]? = some s) :
    ∃ t, step s = .next t ∧ z.instances[i]? = some t ∧ z.sink = y.sink ++ s.delivers.map (Prod.mk i) ∧
      z.sinkOf i = y.sinkOf i ++ s.delivers := by
  obtain ⟨s', t, hs', ht, rfl⟩ := System.stepOf_eq_some h
  cases hs.symm.trans hs'
  obtain ⟨hlt, -⟩ := List.getElem?_eq_some_iff.mp hs
  refine ⟨t, ht, List.getElem?_set_self hlt, rfl, ?_⟩
  rw [System.sinkOf_append, if_pos rfl]
  rfl

/-- Any other machine: it stays, and so do its records in the sink. -/
theorem System.stepOf_other {y z : System} {i j : Nat} (h : y.stepOf i = some z) (hij : j ≠ i) :
    z.instances[j]? = y.instances[j]? ∧ z.sinkOf j = y.sinkOf j := by
  obtain ⟨s, t, -, -, rfl⟩ := System.stepOf_eq_some h
  refine ⟨List.getElem?_set_ne hij.symm, ?_⟩
  rw [System.sinkOf_append, if_neg hij.symm, List.append_nil]
  rfl

/-- Settles O58: the delivery is the oldest record on the sink's turn, and nothing otherwise. -/
theorem sinkKeepsRecordsApart : Obligations.SinkKeepsRecordsApart := by
  intro y z i s h hs
  obtain ⟨t, ht, hinst, hsink, hsinkOf⟩ := System.stepOf_self h hs
  refine ⟨fun rest r q hin hq => ?_, fun hnone => ?_, fun j hij => System.stepOf_other h hij⟩
  · have hdelivers : s.delivers = [r] := by rw [State.delivers_sink hin, hq]; rfl
    have htake : t = { s with inputs := rest, reportQ := q } := by
      obtain ⟨-, rfl⟩ | ⟨hreset, -⟩ | ⟨hother, -⟩ := step_inputs_reports ht
      · simp only [sinkTake, hin, hq, List.tail_cons]
      · simp [hin] at hreset
      · simp [hin] at hother
    rw [hdelivers] at hsink hsinkOf
    exact ⟨hsink, hsinkOf, htake ▸ hinst⟩
  · have hdelivers : s.delivers = [] := hnone.elim State.delivers_empty State.delivers_other
    rw [hsink, hdelivers, List.map_nil, List.append_nil]

/-! ### Along a schedule -/

/-- Whichever machine moves, the records of one that no reset awaits stay in order, in the sink and behind it in the
queue, and still no reset awaits it. -/
theorem System.stepOf_keeps_records {y z : System} {i j : Nat} {s : State} (h : y.stepOf j = some z)
    (hs : y.instances[i]? = some s) (hreset : .reset ∉ s.inputs) :
    ∃ t, z.instances[i]? = some t ∧ .reset ∉ t.inputs ∧ y.sinkOf i ++ s.reportQ <+: z.sinkOf i ++ t.reportQ := by
  by_cases hij : i = j
  · subst hij
    obtain ⟨t, ht, hinst, -, hsinkOf⟩ := System.stepOf_self h hs
    refine ⟨t, hinst, fun hmem => hreset ?_, ?_⟩
    · rw [step_inputs ht] at hmem
      exact List.mem_of_mem_tail hmem
    · rw [hsinkOf, List.append_assoc]
      exact (List.prefix_append_right_inj _).mpr (step_reports ht fun hhead => hreset (List.mem_of_mem_head? hhead))
  · obtain ⟨hinst, hsinkOf⟩ := System.stepOf_other h hij
    exact ⟨s, hinst.trans hs, hreset, by rw [hsinkOf]⟩

theorem System.run_cons {y z : System} {i : Nat} {rest : List Nat} (h : y.run (i :: rest) = some z) :
    ∃ x, y.stepOf i = some x ∧ x.run rest = some z := by
  unfold System.run at h
  split at h
  · next x hx => exact ⟨x, hx, h⟩
  · cases h

/-- The records of a machine that no reset awaits stay in order along every schedule: each step keeps them. -/
theorem System.run_keeps_records {schedule : List Nat} {y z : System} {i : Nat} {s : State} (h : y.run schedule = some z)
    (hs : y.instances[i]? = some s) (hreset : .reset ∉ s.inputs) :
    ∃ t, z.instances[i]? = some t ∧ y.sinkOf i ++ s.reportQ <+: z.sinkOf i ++ t.reportQ := by
  induction schedule generalizing y s with
  | nil =>
    cases h
    exact ⟨s, hs, List.prefix_refl _⟩
  | cons j rest ih =>
    obtain ⟨x, hstep, hrun⟩ := System.run_cons h
    obtain ⟨u, hu, hureset, hfirst⟩ := System.stepOf_keeps_records hstep hs hreset
    obtain ⟨t, ht, hrest⟩ := ih hrun hu hureset
    exact ⟨t, ht, hfirst.trans hrest⟩

/-- Settles O59: the new records begin with the old ones, and the fresh ones are the rest. -/
theorem recordsReachTheSinkInOrder : Obligations.RecordsReachTheSinkInOrder := by
  intro schedule y z h i s hs hreset
  obtain ⟨t, ht, fresh, hfresh⟩ := System.run_keeps_records h hs hreset
  exact ⟨t, fresh, ht, hfresh.symm⟩

end Sys2Proof.Machine
end

/-! ## The summary of an outcome and the report record (R160, R161, R170) -/

section
namespace Sys2Proof.Machine

/-! ### The six outcomes of a decode -/

/-- The rows of R161: an outcome of layers 2 and 3 with its summary. -/
inductive Result.HasSummaryRow (r : Result) : Prop where
  | rejected (h2 : r.l2 = .rejected) (h3 : r.l3 = .none) (hsum : r.sum = .sentinel)
  | unsupported (h2 : r.l2 = .ok) (h3 : r.l3 = .unsupported) (hsum : r.sum = .sentinel)
  | malformed (h2 : r.l2 = .ok) (h3 : r.l3 = .malformed) (hsum : r.sum = .sentinel)
  | ipv4 (h2 : r.l2 = .ok) (h3 : r.l3 = .ipv4) (p : Ip4Regs) (hp : r.ip4 = some p) (hsum : r.sum = .ofV4 p.src p.dst)
  | ipv6 (h2 : r.l2 = .ok) (h3 : r.l3 = .ipv6) (p : Ip6Regs) (hp : r.ip6 = some p) (hsum : r.sum = .ofV6 p.src p.dst)
  | arp (h2 : r.l2 = .ok) (h3 : r.l3 = .arp) (p : ArpRegs) (hp : r.arp = some p) (hsum : r.sum = .ofV4 p.spa p.tpa)

/-- Layer 4 writes its status and the ports and nothing else (R115). -/
theorem frameLayer4_frame (fb : Memory) (flen : Nat) (key : BitVec 8) (r : Result) :
    ∃ c p, frameLayer4 fb flen key r = { r with l4 := c, ports := p } := by
  unfold frameLayer4
  dsimp only
  split_ifs
  · exact ⟨.malformed, r.ports, rfl⟩
  · exact ⟨.tcp, _, rfl⟩
  · exact ⟨.malformed, r.ports, rfl⟩
  · exact ⟨.udp, _, rfl⟩
  · exact ⟨.unsupported, r.ports, rfl⟩

/-- So layer 4 moves no decode to another row. -/
theorem hasSummaryRow_frameLayer4 (fb : Memory) (flen : Nat) (key : BitVec 8) {r : Result} (h : r.HasSummaryRow) :
    (frameLayer4 fb flen key r).HasSummaryRow := by
  obtain ⟨c, p, hr⟩ := frameLayer4_frame fb flen key r
  rw [hr]
  cases h with
  | rejected h2 h3 hsum => exact .rejected h2 h3 hsum
  | unsupported h2 h3 hsum => exact .unsupported h2 h3 hsum
  | malformed h2 h3 hsum => exact .malformed h2 h3 hsum
  | ipv4 h2 h3 p hp hsum => exact .ipv4 h2 h3 p hp hsum
  | ipv6 h2 h3 p hp hsum => exact .ipv6 h2 h3 p hp hsum
  | arp h2 h3 p hp hsum => exact .arp h2 h3 p hp hsum

/-- From a decoded Ethernet header and the sentinel, each arm of layer 3 ends in a row of its own. -/
theorem hasSummaryRow_frameLayer3 (fb : Memory) (flen : Nat) (key : BitVec 16) {r : Result} (h2 : r.l2 = .ok)
    (hsum : r.sum = .sentinel) : (frameLayer3 fb flen key r).HasSummaryRow := by
  unfold frameLayer3
  split_ifs
  · rw [frameIpv4_eq]
    dsimp only
    split_ifs
    · exact .malformed h2 rfl hsum
    · exact hasSummaryRow_frameLayer4 fb flen _ (.ipv4 h2 rfl _ rfl rfl)
  · unfold frameIpv6
    split_ifs
    · exact .malformed h2 rfl hsum
    · exact hasSummaryRow_frameLayer4 fb flen _ (.ipv6 h2 rfl _ rfl rfl)
  · unfold frameArp
    split_ifs
    · exact .malformed h2 rfl hsum
    · exact .arp h2 rfl _ rfl rfl
  · exact .unsupported h2 rfl hsum

theorem hasSummaryRow_decodeFrame (fb : Memory) (flen : Nat) : (decodeFrame fb flen).HasSummaryRow := by
  rw [decodeFrame_eq]
  split_ifs
  · exact .rejected rfl rfl rfl
  · exact hasSummaryRow_frameLayer3 fb flen _ rfl rfl

/-- Settles O35: every frame is in a row, and the rows have different statuses. -/
theorem summaryOfEveryOutcome : Obligations.SummaryOfEveryOutcome := by
  intro fb flen
  dsimp only
  cases hasSummaryRow_decodeFrame fb flen with
  | rejected h2 h3 hsum => simp [h2, h3, hsum, SumRegs.sentinel]
  | unsupported h2 h3 hsum => simp [h2, h3, hsum, SumRegs.sentinel]
  | malformed h2 h3 hsum => simp [h2, h3, hsum, SumRegs.sentinel]
  | ipv4 h2 h3 p hp hsum => simp [h2, h3, hp, hsum, SumRegs.ofV4]
  | ipv6 h2 h3 p hp hsum => simp [h2, h3, hp, hsum, SumRegs.ofV6]
  | arp h2 h3 p hp hsum => simp [h2, h3, hp, hsum, SumRegs.ofV4]

/-! ### The report record -/

theorem validOnly_of_iff {α : Type} {valid : Bool} {p : Prop} [Decidable p] (h : valid = true ↔ p) (x : α) :
    validOnly valid x = if p then some x else none := by
  unfold validOnly
  simp only [h]

theorem SumRegs.summary_na {r : SumRegs} (h : r.kind = .na) : r.summary = .na := by
  rw [SumRegs.summary, h]

theorem SumRegs.summary_v4 {r : SumRegs} (h : r.kind = .v4) : r.summary = .v4 (r.src.setWidth 32) (r.dst.setWidth 32) := by
  rw [SumRegs.summary, h]

theorem SumRegs.summary_v6 {r : SumRegs} (h : r.kind = .v6) : r.summary = .v6 r.src r.dst := by
  rw [SumRegs.summary, h]

/-- Settles O27: each group is the Result's, which R29 makes valid by the status. -/
theorem reportHoldsWhatTheStatusesMakePresent : Obligations.ReportHoldsWhatTheStatusesMakePresent := fun s =>
  ⟨rfl, rfl, rfl, rfl, validOnly_of_iff beq_iff_eq s.eth, validOnly_of_iff beq_iff_eq s.ip4,
    validOnly_of_iff beq_iff_eq s.ip6, validOnly_of_iff beq_iff_eq s.arp,
    validOnly_of_iff s.l3Status.hasPayload_iff s.l4key, validOnly_of_iff s.l4Status.hasPorts_iff s.ports,
    SumRegs.summary_na, SumRegs.summary_v4, SumRegs.summary_v6⟩

end Sys2Proof.Machine
end

/-! ## The text of a summary (R163 to R166)

A text is read back: cut at its separators, and each part read as a number. What can be read back determines what was written. -/

section
namespace Sys2Proof.Machine

/-! ### Numbers -/

/-- The value of a digit up to `f`. -/
def digitValue (c : Char) : Nat := if c.isDigit then c.toNat - '0'.toNat else 10 + (c.toNat - 'a'.toNat)

/-- The number a text of digits writes. -/
def readNumber (base : Nat) (t : Text) : Nat := t.foldl (fun v c => base * v + digitValue c) 0

theorem digitValue_digitChar {n : Nat} (h : n < 16) : digitValue n.digitChar = n := by
  revert n
  decide

theorem readNumber_decimalText {n : Nat} (h : n < 1000) : readNumber 10 (decimalText n) = n := by
  unfold decimalText
  split_ifs <;> simp (disch := omega) only [readNumber, List.foldl, digitValue_digitChar] <;> omega

theorem readNumber_hexText {n : Nat} (h : n < 65536) : readNumber 16 (hexText n) = n := by
  unfold hexText
  split_ifs <;> simp (disch := omega) only [readNumber, List.foldl, digitValue_digitChar] <;> omega

theorem dot_notMem_decimalText (n : Nat) : '.' ∉ decimalText n := by
  have hdot (d : Nat) : '.' ≠ d.digitChar := (Nat.digitChar_ne '.' (by decide)).symm
  unfold decimalText
  split_ifs <;> simp [hdot]

theorem colon_notMem_hexText (n : Nat) : ':' ∉ hexText n := by
  have hcolon (d : Nat) : ':' ≠ d.digitChar := (Nat.digitChar_ne ':' (by decide)).symm
  unfold hexText
  split_ifs <;> simp [hcolon]

theorem hexText_ne_nil (n : Nat) : hexText n ≠ [] := by
  unfold hexText
  split_ifs <;> exact List.cons_ne_nil _ _

theorem map_read_eq_self {write : Nat → Text} {read : Text → Nat} {bound : Nat} (hread : ∀ n < bound, read (write n) = n)
    {ns : List Nat} (hns : ∀ n ∈ ns, n < bound) : (ns.map write).map read = ns := by
  rw [List.map_map]
  exact (List.map_congr_left fun n hn => hread n (hns n hn)).trans (List.map_id ns)

/-! ### Separators -/

theorem joinText_eq_intercalate (sep : Char) (ts : List Text) : joinText sep ts = [sep].intercalate ts := by
  fun_induction joinText sep ts with
  | case1 => rfl
  | case2 t => simp
  | case3 t u ts ih => rw [ih]; simp [List.intercalate]

/-- Texts without the separator are read back by cutting at it. -/
theorem splitOn_joinText {sep : Char} {ts : List Text} (hsep : ∀ t ∈ ts, sep ∉ t) (hne : ts ≠ []) :
    (joinText sep ts).splitOn sep = ts := by
  rw [joinText_eq_intercalate]
  exact List.splitOn_intercalate sep hsep hne

theorem joinText_append (sep : Char) {xs ys : List Text} (hx : xs ≠ []) (hy : ys ≠ []) :
    joinText sep (xs ++ ys) = joinText sep xs ++ sep :: joinText sep ys := by
  fun_induction joinText sep xs with
  | case1 => exact absurd rfl hx
  | case2 t =>
    obtain ⟨u, us, rfl⟩ := List.exists_cons_of_ne_nil hy
    rfl
  | case3 t u ts ih =>
    have htail := ih (List.cons_ne_nil u ts)
    rw [List.cons_append] at htail
    simp [joinText, htail]

/-! ### Pieces of a word -/

/-- The `n` pieces of `w` bits, the most significant first. -/
def piecesOf (n w : Nat) {m : Nat} (a : BitVec m) : List Nat :=
  (List.range n).map fun i => (a.extractLsb' (w * (n - 1) - w * i) w).toNat

theorem piecesOf_lt {n w m : Nat} {a : BitVec m} : ∀ v ∈ piecesOf n w a, v < 2 ^ w := by
  simp only [piecesOf, List.forall_mem_map]
  exact fun i _ => BitVec.isLt _

/-- Pieces that cover the word determine it: each bit is in one of them. -/
theorem piecesOf_injective {n w m : Nat} (hw : 0 < w) (hcover : m ≤ w * n) {a b : BitVec m}
    (h : piecesOf n w a = piecesOf n w b) : a = b := by
  have hpiece : ∀ i < n, a.extractLsb' (w * (n - 1) - w * i) w = b.extractLsb' (w * (n - 1) - w * i) w := by
    intro i hi
    exact BitVec.eq_of_toNat_eq (List.map_inj_left.mp h i (List.mem_range.mpr hi))
  refine BitVec.eq_of_getLsbD_eq fun j hj => ?_
  have hk : j / w ≤ n - 1 := Nat.le_sub_one_of_lt (Nat.div_lt_of_lt_mul (Nat.lt_of_lt_of_le hj hcover))
  have hoffset : w * (n - 1) - w * (n - 1 - j / w) = w * (j / w) := by rw [← Nat.mul_sub, Nat.sub_sub_self hk]
  have hn : 0 < n := Nat.pos_of_mul_pos_left (Nat.lt_of_lt_of_le (Nat.zero_lt_of_lt hj) hcover)
  have hindex : n - 1 - j / w < n := Nat.lt_of_le_of_lt (Nat.sub_le _ _) (Nat.sub_lt hn Nat.one_pos)
  have hbit := congrArg (fun x => x.getLsbD (j % w)) (hpiece (n - 1 - j / w) hindex)
  simpa [hoffset, Nat.mod_lt j hw, Nat.div_add_mod] using hbit

/-! ### Dotted decimal -/

theorem renderV4_eq (a : Ipv4Addr) : renderV4 a = joinText '.' ((piecesOf 4 8 a).map decimalText) := rfl

/-- The four bytes are read back from the text. -/
theorem read_renderV4 (a : Ipv4Addr) : ((renderV4 a).splitOn '.').map (readNumber 10) = piecesOf 4 8 a := by
  have hdot : ∀ t ∈ (piecesOf 4 8 a).map decimalText, '.' ∉ t :=
    List.forall_mem_map.mpr fun n _ => dot_notMem_decimalText n
  rw [renderV4_eq, splitOn_joinText hdot (by simp [piecesOf])]
  exact map_read_eq_self (bound := 2 ^ 8) (fun n hn => readNumber_decimalText (by omega)) piecesOf_lt

/-- Settles O54: the bytes are read back, and they determine the address. -/
theorem dottedDecimalIsInjective : Obligations.DottedDecimalIsInjective := by
  intro a b h
  have hpieces : piecesOf 4 8 a = piecesOf 4 8 b := by rw [← read_renderV4, h, read_renderV4]
  exact piecesOf_injective (by decide) (by decide) hpieces

/-! ### The longest run of zero groups -/

/-- The groups from `i` on begin with `zeroRun gs i` zeros. -/
theorem take_drop_of_le_zeroRun {gs : List Nat} {i n : Nat} (h : n ≤ zeroRun gs i) :
    (gs.drop i).take n = List.replicate n 0 := by
  have hprefix := List.prefix_iff_eq_take.mp (List.takeWhile_prefix (l := gs.drop i) (· == 0))
  have htake : (gs.drop i).take n = ((gs.drop i).takeWhile (· == 0)).take n := by
    rw [hprefix, List.take_take]
    exact congrArg (List.take · _) (Nat.min_eq_left h).symm
  rw [htake, List.eq_replicate_iff, List.length_take]
  refine ⟨Nat.min_eq_left h, fun g hg => ?_⟩
  exact beq_iff_eq.mp (List.mem_takeWhile_imp (List.mem_of_mem_take hg) :)

/-- The run found is one: as many zero groups begin where it starts. -/
theorem longestZeroRun_le (gs : List Nat) : (longestZeroRun gs).2 ≤ zeroRun gs (longestZeroRun gs).1 := by
  unfold longestZeroRun
  refine List.foldlRecOn (motive := fun best : Nat × Nat => best.2 ≤ zeroRun gs best.1) _ _ (Nat.zero_le _) ?_
  intro best hbest i _
  split_ifs
  · exact Nat.le_refl _
  · exact hbest

/-- The groups are those before the run, its zeros, and those behind it. -/
theorem groups_around_longestZeroRun (gs : List Nat) :
    gs = gs.take (longestZeroRun gs).1 ++ List.replicate (longestZeroRun gs).2 0 ++
      gs.drop ((longestZeroRun gs).1 + (longestZeroRun gs).2) := by
  rw [← take_drop_of_le_zeroRun (longestZeroRun_le gs), ← List.drop_drop, List.append_assoc, List.take_append_drop,
    List.take_append_drop]

/-! ### Colon hexadecimal -/

/-- Beside `::` no text at all reads as one empty part. -/
def padParts : List Text → List Text
  | [] => [[]]
  | t :: ts => t :: ts

theorem padParts_of_ne_nil {ts : List Text} (h : ts ≠ []) : padParts ts = ts := by
  obtain ⟨u, us, rfl⟩ := List.exists_cons_of_ne_nil h
  rfl

theorem padParts_ne_nil (ts : List Text) : padParts ts ≠ [] := by
  cases ts <;> exact List.cons_ne_nil _ _

theorem joinText_padParts (sep : Char) (ts : List Text) : joinText sep (padParts ts) = joinText sep ts := by
  cases ts <;> rfl

theorem mem_padParts {t : Text} {ts : List Text} (h : t ∈ padParts ts) : t = [] ∨ t ∈ ts := by
  cases ts with
  | nil => exact .inl (List.mem_singleton.mp h)
  | cons u us => exact .inr h

theorem reverse_padParts (ts : List Text) : (padParts ts).reverse = padParts ts.reverse := by
  by_cases h : ts = []
  · rw [h]
    rfl
  · rw [padParts_of_ne_nil h, padParts_of_ne_nil (List.reverse_ne_nil_iff.mpr h)]

/-- The parts between the colons of a text with `::` in it. -/
def compressedParts (left right : List Text) : List Text := padParts left ++ [] :: padParts right

theorem joinText_compressedParts (left right : List Text) :
    joinText ':' (compressedParts left right) = joinText ':' left ++ [':', ':'] ++ joinText ':' right := by
  have hright : joinText ':' ([] :: padParts right) = ':' :: joinText ':' right := by
    rw [← joinText_padParts ':' right]
    exact joinText_append ':' (List.cons_ne_nil [] []) (padParts_ne_nil right)
  rw [compressedParts, joinText_append ':' (padParts_ne_nil left) (List.cons_ne_nil _ _), hright, joinText_padParts]
  simp

theorem reverse_compressedParts (left right : List Text) :
    (compressedParts left right).reverse = compressedParts right.reverse left.reverse := by
  simp [compressedParts, reverse_padParts]

/-- The texts before `::` are the parts before the first empty one. -/
theorem takeWhile_compressedParts {left : List Text} (hleft : ∀ t ∈ left, t ≠ []) (right : List Text) :
    (compressedParts left right).takeWhile (· ≠ []) = left := by
  cases left with
  | nil => rfl
  | cons t ts =>
    have hkept : ∀ u ∈ t :: ts, decide (u ≠ []) = true := fun u hu => decide_eq_true (hleft u hu)
    exact (List.takeWhile_append_of_pos hkept).trans (List.append_nil _)

/-- The groups a text with eight of them writes, `::` read as the zeros that are missing. -/
def readGroups (t : Text) : List Nat :=
  let parts := t.splitOn ':'
  let left := (parts.takeWhile (· ≠ [])).map (readNumber 16)
  let right := (parts.reverse.takeWhile (· ≠ [])).reverse.map (readNumber 16)
  if [] ∈ parts then left ++ List.replicate (8 - (left.length + right.length)) 0 ++ right else left

theorem splitOn_hexTexts {gs : List Nat} (hne : gs ≠ []) :
    (joinText ':' (gs.map hexText)).splitOn ':' = gs.map hexText :=
  splitOn_joinText (List.forall_mem_map.mpr fun n _ => colon_notMem_hexText n) (mt List.map_eq_nil_iff.mp hne)

theorem splitOn_compressedParts (left right : List Nat) :
    (joinText ':' (compressedParts (left.map hexText) (right.map hexText))).splitOn ':' =
      compressedParts (left.map hexText) (right.map hexText) := by
  have hcolon (ns : List Nat) : ∀ t ∈ padParts (ns.map hexText), ':' ∉ t := fun t ht => by
    obtain rfl | ht := mem_padParts ht
    · exact List.not_mem_nil
    · obtain ⟨n, -, rfl⟩ := List.mem_map.mp ht
      exact colon_notMem_hexText n
  refine splitOn_joinText (fun t ht => ?_) (List.append_ne_nil_of_left_ne_nil (padParts_ne_nil _) _)
  obtain ht | ht := List.mem_append.mp ht
  · exact hcolon left t ht
  · obtain rfl | ht := List.mem_cons.mp ht
    · exact List.not_mem_nil
    · exact hcolon right t ht

theorem hexTexts_ne_nil (gs : List Nat) : ∀ t ∈ gs.map hexText, t ≠ [] :=
  List.forall_mem_map.mpr fun n _ => hexText_ne_nil n

theorem read_hexTexts {gs : List Nat} (hgs : ∀ g ∈ gs, g < 65536) : (gs.map hexText).map (readNumber 16) = gs :=
  map_read_eq_self (fun _ => readNumber_hexText) hgs

theorem readGroups_plain {gs : List Nat} (hgs : ∀ g ∈ gs, g < 65536) (hne : gs ≠ []) :
    readGroups (joinText ':' (gs.map hexText)) = gs := by
  have hfull : [] ∉ gs.map hexText := fun h => hexTexts_ne_nil gs [] h rfl
  have hwhole : (gs.map hexText).takeWhile (· ≠ []) = gs.map hexText :=
    List.takeWhile_eq_self_iff.mpr fun t ht => decide_eq_true (hexTexts_ne_nil gs t ht)
  rw [readGroups, splitOn_hexTexts hne]
  rw [if_neg hfull, hwhole, read_hexTexts hgs]

theorem readGroups_compressed {left right : List Nat} (hleft : ∀ g ∈ left, g < 65536) (hright : ∀ g ∈ right, g < 65536) :
    readGroups (joinText ':' (compressedParts (left.map hexText) (right.map hexText))) =
      left ++ List.replicate (8 - (left.length + right.length)) 0 ++ right := by
  have hempty : [] ∈ compressedParts (left.map hexText) (right.map hexText) :=
    List.mem_append_right _ List.mem_cons_self
  have hreverse : ∀ t ∈ (right.map hexText).reverse, t ≠ [] := fun t ht => hexTexts_ne_nil right t (List.mem_reverse.mp ht)
  rw [readGroups, splitOn_compressedParts]
  rw [if_pos hempty, reverse_compressedParts, takeWhile_compressedParts (hexTexts_ne_nil left),
    takeWhile_compressedParts hreverse, List.reverse_reverse, read_hexTexts hleft, read_hexTexts hright]

/-- The text of eight groups is read back as them. -/
theorem readGroups_renderGroups {gs : List Nat} (hgs : ∀ g ∈ gs, g < 65536) (hlength : gs.length = 8) :
    readGroups (renderGroups gs) = gs := by
  have haround := groups_around_longestZeroRun gs
  unfold renderGroups
  dsimp only
  generalize longestZeroRun gs = run at haround ⊢
  split_ifs
  · have hmissing : 8 - ((gs.take run.1).length + (gs.drop (run.1 + run.2)).length) = run.2 := by
      have hsum := congrArg List.length haround
      simp only [List.length_append, List.length_replicate] at hsum
      omega
    rw [← joinText_compressedParts, readGroups_compressed (fun g hg => hgs g (List.mem_of_mem_take hg))
      (fun g hg => hgs g (List.mem_of_mem_drop hg)), hmissing]
    exact haround.symm
  · exact readGroups_plain hgs (List.ne_nil_of_length_pos (by omega))

theorem read_renderV6 (a : Ipv6Addr) : readGroups (renderV6 a) = piecesOf 8 16 a :=
  readGroups_renderGroups (gs := piecesOf 8 16 a) piecesOf_lt (by simp [piecesOf])

/-- Settles O55: the groups are read back, and they determine the address. -/
theorem colonHexIsInjective : Obligations.ColonHexIsInjective := by
  intro a b h
  have hpieces : piecesOf 8 16 a = piecesOf 8 16 b := by rw [← read_renderV6, h, read_renderV6]
  exact piecesOf_injective (by decide) (by decide) hpieces

/-! ### The marker -/

/-- Settles O56: a legal marker is the text of no address. -/
theorem sentinelTextIsNoAddress : Obligations.SentinelTextIsNoAddress := by
  intro p hlegal x
  obtain ⟨-, hv4, hv6, -⟩ := hlegal
  cases x with
  | na => exact ⟨iff_of_true rfl rfl, iff_of_true rfl rfl⟩
  | v4 src dst =>
    exact ⟨iff_of_false (hv4 src).symm Summary.noConfusion, iff_of_false (hv4 dst).symm Summary.noConfusion⟩
  | v6 src dst =>
    exact ⟨iff_of_false (hv6 src).symm Summary.noConfusion, iff_of_false (hv6 dst).symm Summary.noConfusion⟩

end Sys2Proof.Machine
end

/-! ## The events, and a machine's run inside a system (R186, R197) -/

section
namespace Sys2Proof.Machine

/-- Every event is the `DONE` entry action on the state that holds its status code (R186). -/
theorem doneFrom_raiseEvent (e : Event) (s : State) : DoneFrom (e.record s) (raiseEvent e s) :=
  doneFrom_enterDone (e.record s)

/-- Settles O25: the state each event starts the `DONE` entry action from is the one its status code is written in. -/
theorem raisingAnEventEndsTheDecode : Obligations.RaisingAnEventEndsTheDecode := fun s =>
  ⟨doneFrom_raiseEvent .rejected s, doneFrom_raiseEvent .unsupportedL3 s, doneFrom_raiseEvent .malformedL3 s,
    doneFrom_raiseEvent .unsupportedL4 s, doneFrom_raiseEvent .malformedL4 s⟩

/-- Along a schedule a machine takes its own turns and no others: a turn of its own is one step of it alone, and any other
machine's turn leaves it as it is. -/
theorem System.run_as_alone {schedule : List Nat} {y z : System} {i : Nat} {s : State} (h : y.run schedule = some z)
    (hs : y.instances[i]? = some s) : ∃ t, z.instances[i]? = some t ∧ Machine.run (schedule.count i) s = .next t := by
  induction schedule generalizing y s with
  | nil =>
    cases h
    exact ⟨s, hs, rfl⟩
  | cons j rest ih =>
    obtain ⟨x, hstep, hrun⟩ := System.run_cons h
    by_cases hij : i = j
    · subst hij
      obtain ⟨u, hu, hinst, -, -⟩ := System.stepOf_self hstep hs
      obtain ⟨t, ht, halone⟩ := ih hrun hinst
      exact ⟨t, ht, by rw [List.count_cons_self, run_of_step hu, halone]⟩
    · obtain ⟨hinst, -⟩ := System.stepOf_other hstep hij
      obtain ⟨t, ht, halone⟩ := ih hrun (hinst.trans hs)
      exact ⟨t, ht, by rw [List.count_cons_of_ne (Ne.symm hij), halone]⟩

/-- Settles O57: the steps a machine takes along the schedule are its turns there. -/
theorem instancesRunAsIfAlone : Obligations.InstancesRunAsIfAlone := fun _ _ _ h _ _ hs => System.run_as_alone h hs

end Sys2Proof.Machine
end

/-! ## A host that keeps its duties (R192, R214, R221)

While inputs are left, each step is allowed, so it answers a next state and uses one of them up. Once they are used up, the parser
moves alone: a running decode goes up the chain `L2, L3, L4, DONE`, whose length bounds the steps still to come, and a waiting
parser stays where it is. -/

section
namespace Sys2Proof.Machine

/-! ### The steps while inputs are left -/

theorem isNext_iff {o : Host.Outcome State Fault Refusal} : isNext o = true ↔ ∃ t, o = .next t := by
  cases o <;> simp

/-- An allowed step has a next state, from which the host goes on keeping its duties, with one input less. -/
theorem HostKeepsDuties.step_eq_next {s : State} (h : HostKeepsDuties s) :
    ∃ t, step s = .next t ∧ HostKeepsDuties t ∧ t.inputs = s.inputs.tail := by
  have hduty : s.hostKeepsDuty = true := h 0 s rfl
  obtain ⟨t, ht⟩ := isNext_iff.mp ((isNext_step s).trans hduty)
  exact ⟨t, ht, fun k u hu => h (k + 1) u ((run_of_step ht k).trans hu), step_inputs ht⟩

/-- No number of steps reaches a stop, and each uses up one input, if there is one. -/
theorem HostKeepsDuties.run_eq_next {s : State} (h : HostKeepsDuties s) (k : Nat) :
    ∃ t, run k s = .next t ∧ t.inputs = s.inputs.drop k := by
  induction k generalizing s with
  | zero => exact ⟨s, rfl, rfl⟩
  | succ k ih =>
    obtain ⟨u, hu, hduties, hinputs⟩ := h.step_eq_next
    obtain ⟨t, ht, hleft⟩ := ih hduties
    exact ⟨t, (run_of_step hu k).trans ht, by rw [hleft, hinputs, List.drop_tail]⟩

/-! ### The steps of the parser alone -/

/-- A run that reaches `t` goes on as the run from `t`. -/
theorem run_add_of_run {m : Nat} {s t : State} (h : run m s = .next t) (n : Nat) : run (m + n) s = run n t := by
  induction m generalizing s with
  | zero =>
    cases h
    rw [Nat.zero_add]
  | succ m ih =>
    cases hs : step s with
    | next u => rw [Nat.succ_add, run_of_step hs, ih ((run_of_step hs m).symm.trans h)]
    | fault | refused =>
      rw [run, hs] at h
      cases h

/-- With no input left a waiting parser waits on (R146). -/
theorem run_waiting {s : State} (hwait : s.ps.busy = false) (hin : s.inputs = []) (k : Nat) : run k s = .next s := by
  have hkey : s.parserKey = none := State.parserKey_waiting ((ParserState.not_busy_iff _).mp hwait)
  induction k with
  | zero => rfl
  | succ k ih => rw [run_of_step (step_waiting hin hkey), ih]

/-- The states of a running decode lie strictly between `IDLE` and `DONE` in the chain (R128). -/
theorem ParserState.rank_of_busy {p : ParserState} (h : p.busy = true) : 1 ≤ p.rank ∧ p.rank < ParserState.done.rank := by
  obtain rfl | rfl | rfl := (ParserState.busy_iff p).mp h <;> decide

/-- With no input left the parser stops being busy after as many steps as there are from its place in the chain to `DONE`, since
each step of a running decode leads at least one place further. -/
theorem run_ends_decode {s : State} (hin : s.inputs = []) (k : Nat)
    (hk : s.ps.busy = true → ParserState.done.rank ≤ s.ps.rank + k) :
    ∃ t, run k s = .next t ∧ t.inputs = [] ∧ t.ps.busy = false := by
  induction k generalizing s with
  | zero =>
    have hwait : s.ps.busy = false :=
      Bool.eq_false_iff.mpr fun hbusy => absurd (hk hbusy) (Nat.not_le.mpr (ParserState.rank_of_busy hbusy).2)
    exact ⟨s, rfl, hin, hwait⟩
  | succ k ih =>
    cases hbusy : s.ps.busy with
    | false => exact ⟨s, run_waiting hbusy hin _, hin, hbusy⟩
    | true =>
      obtain ⟨u, hu, hforward, -, hleft⟩ := busyParserMovesForward s hbusy hin
      have hplaces : ParserState.done.rank ≤ u.ps.rank + k := by
        have hremaining := hk hbusy
        omega
      obtain ⟨t, ht, hend⟩ := ih hleft fun _ => hplaces
      exact ⟨t, (run_of_step hu k).trans ht, hend⟩

/-- From any place in the chain three steps of the parser alone are enough (R150, R221). -/
theorem run_three_ends_decode {s : State} (hin : s.inputs = []) :
    ∃ t, run 3 s = .next t ∧ t.inputs = [] ∧ (t.ps = .idle ∨ t.ps = .done) := by
  have hplaces (hbusy : s.ps.busy = true) : ParserState.done.rank ≤ s.ps.rank + 3 :=
    Nat.add_le_add_right (ParserState.rank_of_busy hbusy).1 3
  obtain ⟨t, ht, hleft, hwait⟩ := run_ends_decode hin 3 hplaces
  exact ⟨t, ht, hleft, (ParserState.not_busy_iff _).mp hwait⟩

/-- Settles O52: the run uses up the inputs without a stop, and then the parser has three steps of its own. -/
theorem dutifulHostNeverStopsTheMachine : Obligations.DutifulHostNeverStopsTheMachine := by
  intro s hduties
  refine ⟨fun k => ?_, ?_⟩
  · obtain ⟨t, ht, -⟩ := hduties.run_eq_next k
    exact isNext_iff.mpr ⟨t, ht⟩
  · obtain ⟨u, hu, hleft⟩ := hduties.run_eq_next s.inputs.length
    obtain ⟨t, ht, hend⟩ := run_three_ends_decode (hleft.trans List.drop_length)
    exact ⟨t, (run_add_of_run hu 3).trans ht, hend⟩

end Sys2Proof.Machine
end
